-- ==== Sys2Proof/Word.lean ====
section
/-! DEFINITION. The value types of 00_scope.md R7 to R9: words, bytes and byte strings. -/

namespace Sys2Proof

/-- An 8-bit byte, bit 0 the least significant (00_scope.md R6). -/
abbrev Byte := BitVec 8

/-- A 32-bit unsigned value whose `+` wraps modulo `2^32` (00_scope.md R9). -/
abbrev Word := BitVec 32

/-- `Bytes(n)`: a string of `n` bytes indexed from 0 (00_scope.md R8). -/
abbrev Bytes (n : Nat) := Vector Byte n

/-- `Key` is `Bytes(32)` (00_scope.md R8). -/
abbrev Key := Bytes 32

/-- `Block` is `Bytes(16)` (00_scope.md R8). -/
abbrev Block := Bytes 16

/-- A key-bit index, `0..255` (00_scope.md R13). -/
abbrev KeyBit := Fin 256

end Sys2Proof
end

