-- ==== Sys2Proof/Syntax.lean ====
section
/-! DEFINITION. The commands of TKD-1, one constructor per row of spec/opcode_table.json (30_encoding.md R81). -/

namespace Sys2Proof

/-- A command with its argument `ARG = zext_32(w[13:8])`, an unsigned number (30_encoding.md R82). -/
inductive Instr where
  /-- `NOP`: clears `STATUS.ERR` (43_commands.md R151). -/
  | nop (arg : Nat)
  /-- `LOAD_KEY n`: loads the master key from `KEYSTG`, `n` its raw length in bytes (43_commands.md R152). -/
  | loadKey (arg : Nat)
  /-- `START`: begins a run (43_commands.md R155). -/
  | start (arg : Nat)
  /-- `BLOCK n`: transforms the block in `DIN`, `n` of its bytes being input; `n = 0` ends the stream (43_commands.md R159). -/
  | block (arg : Nat)
deriving DecidableEq, Repr

/-- The `ARG` field of a command (30_encoding.md R80). -/
def Instr.arg : Instr → Nat
  | .nop n => n
  | .loadKey n => n
  | .start n => n
  | .block n => n

/-- The opcode of a command (30_encoding.md R81). -/
def Instr.opcode : Instr → Nat
  | .nop _ => 0
  | .loadKey _ => 1
  | .start _ => 2
  | .block _ => 3

end Sys2Proof
end

