-- ==== Sys2Proof/WellFormed.lean ====
section
/-! DEFINITION. Which terms of `Instr` have an encoding: the argument fits its 6-bit field. -/

namespace Sys2Proof

/-- `n` must lie in `0..63` to spell a legal command word (30_encoding.md R82, R86). -/
def argFits (n : Nat) : Bool := decide (n ≤ 63)

/-- The command's argument fits `ARG` (30_encoding.md R80). Whether the command accepts it is part of the command's own
rule (R82), not of well-formedness. -/
def Instr.wellFormed : Instr → Bool
  | .nop n => argFits n
  | .loadKey n => argFits n
  | .start n => argFits n
  | .block n => argFits n

end Sys2Proof
end

