-- ==== Sys2Proof/Decode.lean ====
section
/-! DEFINITION. Decoding of command words, total on every word (30_encoding.md R85), and the encoder. -/

namespace Sys2Proof

/-- Why a word encodes no command. Both reasons raise `RESERVED_COMMAND`; neither stops the machine. -/
inductive Illegal where
  /-- `RSV0` or `RSV1` is not zero (30_encoding.md R83). -/
  | reservedBits
  /-- `OP` lies in `0x4..0xF` (30_encoding.md R84). -/
  | reservedOpcode
deriving DecidableEq, Repr

/-- `OP = w[3:0]` (30_encoding.md R80). -/
def opField (w : Word) : BitVec 4 := w.extractLsb' 0 4

/-- `RSV0 = w[7:4]` (30_encoding.md R80). -/
def rsv0Field (w : Word) : BitVec 4 := w.extractLsb' 4 4

/-- `ARG = w[13:8]` (30_encoding.md R80). -/
def argField (w : Word) : BitVec 6 := w.extractLsb' 8 6

/-- `RSV1 = w[31:14]` (30_encoding.md R80). -/
def rsv1Field (w : Word) : BitVec 18 := w.extractLsb' 14 18

/-- `decode(w)` of 30_encoding.md R85. -/
def decode (w : Word) : Except Illegal Instr :=
  if rsv0Field w ≠ 0 ∨ rsv1Field w ≠ 0 then .error .reservedBits
  else
    match (opField w).toNat with
    | 0 => .ok (.nop (argField w).toNat)
    | 1 => .ok (.loadKey (argField w).toNat)
    | 2 => .ok (.start (argField w).toNat)
    | 3 => .ok (.block (argField w).toNat)
    | _ => .error .reservedOpcode

/-- The command word with opcode `op`, argument `n` and reserved bits zero (30_encoding.md R80, R86). -/
def commandWord (op : Word) (n : Nat) : Word := (BitVec.ofNat 32 n <<< 8) ||| op

/-- The word of a well-formed command (30_encoding.md R81, R86). -/
def encode : Instr → Word
  | .nop n => commandWord 0x0 n
  | .loadKey n => commandWord 0x1 n
  | .start n => commandWord 0x2 n
  | .block n => commandWord 0x3 n

/-- The command word whose low `nbits` bits are those of `w` and whose other bits are 0: the bits of a row of
spec/opcode_table.json as the 32-bit value that one write to `CMD` carries (30_encoding.md R80). -/
def tableWord (nbits w : Nat) : Word := BitVec.ofNat 32 (w % 2 ^ nbits)

/-- The command that `decode` reads from an instruction whose bits are `w`. -/
def decodeTableWord (nbits w : Nat) : Option Instr :=
  match decode (tableWord nbits w) with
  | .ok i => some i
  | .error _ => none

end Sys2Proof
end

