-- ==== Sys2Proof/Config.lean ====
section
/-! DEFINITION. The implementation parameters that the spec leaves OPEN (00_scope.md R5): the pattern table, the block
cipher and the bus address of the register window. Each is an opaque constant: nothing can prove a value of it. -/

namespace Sys2Proof

/-- The two parameters a transform depends on. `table b` is the entry of the pattern table for key bit `b` less 5, so
that `Params.tweakPattern` ranges over exactly the tables R11 allows (log 1). `cipher k` is the forward direction under
key `k` as a permutation of blocks, so that it and its inverse range over exactly the pairs R12 allows (log 2). -/
structure Params where
  table : KeyBit → Fin 19
  cipher : Key → Equiv.Perm Block

/-- `TWEAK_PATTERN[b]`, an offset-bit index in 5..23 (00_scope.md R11, 41_tweak_key_deriver.md R120). -/
def Params.tweakPattern (p : Params) (b : KeyBit) : Nat := 5 + (p.table b).val

/-- `CIPHER_E(k, x)`, the forward direction (00_scope.md R12). -/
def Params.cipherE (p : Params) (k : Key) (x : Block) : Block := p.cipher k x

/-- `CIPHER_D(k, x)`, the inverse direction (00_scope.md R12). -/
def Params.cipherD (p : Params) (k : Key) (x : Block) : Block := (p.cipher k).symm x

namespace Config

/-- The pattern table, OPEN (00_scope.md R5, R11; log 1). -/
opaque tweakTable : KeyBit → Fin 19

/-- The block cipher, OPEN (00_scope.md R5, R12; log 2). -/
opaque cipher : Key → Equiv.Perm Block

/-- `MMIO_BASE`, the platform's bus address of the register window, OPEN (00_scope.md R5; log 3). -/
opaque mmioBase : Nat

/-- The parameters of the machine. -/
def params : Params := { table := tweakTable, cipher := cipher }

end Config

end Sys2Proof
end

