-- ==== Sys2Proof/Machine/State.lean ====
section
/-! DEFINITION. The state of TKD as plain data (10_state.md), the state after reset (70_reset_and_hazards.md R210), and
the reasons a step can stop. -/

namespace Sys2Proof.Machine

/-- Why a bus access is turned away. -/
inductive Fault where
  /-- The bus error of 20_memory.md R55, raised by `serve` for an access that R56 does not make legal. It is a fault of the
  ACCESS: it is recorded in `State.resp` as the host's error response, no TKD state changes and the machine goes on
  (60_exceptions.md R187; log 6), so no step of the machine stops with it. Safe: nothing about TKD's own state follows
  from it but that the state is unchanged, as the spec says. -/
  | busError
deriving DecidableEq, Repr

/-- Why a step has no meaning in the model. -/
inductive Refusal where
  /-- Raised by an arm of `exec` whose command has no meaning yet. No arm does. Safe: a run stops there. -/
  | notModelled (mnemonic : String)
deriving DecidableEq, Repr

/-- `STATUS.ERR`: the error codes of 60_exceptions.md R180. Codes 8 to 15 are never produced. -/
inductive ErrCode where
  | ok
  | invalidAddress
  | invalidKeyLength
  | shortBlockOnDecrypt
  | noKey
  | sequence
  | reservedCommand
  | invalidArgument
deriving DecidableEq, Repr

/-- `STATUS.RUNST`: the run state (10_state.md R36). -/
inductive RunState where
  | idle
  | active
  | final
  | done
deriving DecidableEq, Repr

/-- `STATUS.KEYSIZE`: the raw length of the last key loaded; the value 3 never occurs (10_state.md R29, R41). -/
inductive KeySize where
  | none
  | bytes24
  | bytes32
deriving DecidableEq, Repr

/-- One move of the host: a bus access at a window offset with a width in bytes (20_memory.md R50), or the reset input
(70_reset_and_hazards.md R210). R228 gives the host no other move. -/
inductive HostMove where
  /-- `MemRead(MMIO_BASE + off, width)`. -/
  | read (off width : Nat)
  /-- `MemWrite(MMIO_BASE + off, width, value)`; byte `j` of the access is bits `[8j+7 : 8j]` of `value` (20_memory.md R53). -/
  | write (off width : Nat) (value : Word)
  /-- The reset input is asserted. -/
  | reset
deriving DecidableEq, Repr

/-- What the host got back from its last move (20_memory.md R50; log 5). -/
inductive Response where
  /-- No access has been answered since reset. -/
  | none
  /-- A write completed; it returns nothing. -/
  | written
  /-- The data of a read, zero-extended to 32 bits. -/
  | data (value : Word)
  /-- The access was turned away. -/
  | fault (reason : Fault)
deriving DecidableEq, Repr

/-- The state of the machine. `bus` and `resp` are the model's own, the host's side of the bus (log 4, log 5); every
other field is state that 10_state.md names. -/
structure State where
  /-- `MKEY`, the master key (R21). -/
  mkey : Key
  /-- `KEY_VALID`, `STATUS[6]` (R22). -/
  keyValid : Bool
  /-- `KEYSTG`, the key staging buffer (R23). -/
  keystg : Bytes 32
  /-- `DIN`, the input block (R24). -/
  din : Block
  /-- `DOUT`, the output block (R25). -/
  dout : Block
  /-- `STATUS.ERR`, the result of the most recent command (R35). -/
  err : ErrCode
  /-- `STATUS.RUNST`, the run state (R36). -/
  runst : RunState
  /-- `STATUS.KEYED`, the engine is keyed (R37). -/
  keyed : Bool
  /-- `STATUS.ABORTED` (R38). -/
  aborted : Bool
  /-- `STATUS.WARN_MASK0` (R39). -/
  warnMask0 : Bool
  /-- `STATUS.WARN_PAD` (R40). -/
  warnPad : Bool
  /-- `STATUS.PADLEN`, a 5-bit field (R40). -/
  padLen : BitVec 5
  /-- `STATUS.KEYSIZE` (R41). -/
  keySize : KeySize
  /-- `OFFSET`, the flash offset of the next input byte (R30). -/
  offset : Word
  /-- `CFG[4:0]`, the storage bits of `CFG`; `CFG[31:5]` reads 0 and ignores writes (R31; log 9). -/
  cfg : BitVec 5
  /-- `BASE`, the flash base address of the next run (R32). -/
  base : Word
  /-- `KEYED_AT`, the offset at which `TKEY` was last derived (R33). -/
  keyedAt : Word
  /-- `BLKCNT`, the data-carrying blocks of the run so far (R34). -/
  blkcnt : Word
  /-- `RMASK`, the mask latched by `START` (R42). -/
  rmask : BitVec 4
  /-- `RDIR`, the direction latched by `START`, true for decrypt (R42). -/
  rdir : Bool
  /-- `TKEY`, the tweaked key (R44). -/
  tkey : Key
  /-- The host's moves that have not taken effect, in the order issued (20_memory.md R62; log 4). -/
  bus : List HostMove
  /-- What the host got back from its last move (log 5). -/
  resp : Response
deriving DecidableEq, Repr

/-- `n` bytes of `0x00`. -/
def zeroBytes (n : Nat) : Bytes n := Vector.replicate n 0

/-- The state right after reset: every element at the value its rule states (70_reset_and_hazards.md R210; 10_state.md
R21 to R44). The host has issued nothing and got nothing (log 4, log 5: DESIGN CHOICE). -/
def State.reset : State where
  mkey := zeroBytes 32
  keyValid := false
  keystg := zeroBytes 32
  din := zeroBytes 16
  dout := zeroBytes 16
  err := .ok
  runst := .idle
  keyed := false
  aborted := false
  warnMask0 := false
  warnPad := false
  padLen := 0
  keySize := .none
  offset := 0
  cfg := 0
  base := 0
  keyedAt := 0
  blkcnt := 0
  rmask := 0
  rdir := false
  tkey := zeroBytes 32
  bus := []
  resp := .none

end Sys2Proof.Machine
end

