-- ==== Sys2Proof/Machine/Tweak.lean ====
section
/-! DEFINITION. The bit-range selector `EXPAND` (40_bit_range_expander.md) and the offset-based key permutation `DERIVE`
(41_tweak_key_deriver.md), pure functions over keys, offsets and sets of key bits. -/

namespace Sys2Proof.Machine

/-- Key bit `b` lies in one of the ranges `[0,67)`, `[67,132)`, `[132,195)`, `[195,256)` that mask `m` selects, mask bit
`i` selecting the `i`-th (40_bit_range_expander.md R100). -/
def maskSelects (m : BitVec 4) (b : Nat) : Bool :=
  (m.getLsbD 0 && decide (b < 67))
    || (m.getLsbD 1 && decide (67 ≤ b ∧ b < 132))
    || (m.getLsbD 2 && decide (132 ≤ b ∧ b < 195))
    || (m.getLsbD 3 && decide (195 ≤ b ∧ b < 256))

/-- A set of key-bit indices, as a sorted list without repeats (40_bit_range_expander.md R102). -/
abbrev TweakRange := List KeyBit

/-- `EXPAND(m)` (40_bit_range_expander.md R100). -/
def expand (m : BitVec 4) : TweakRange := (List.finRange 256).filter fun b => maskSelects m b.val

/-- `RANGE`, the tweak range of the current run, `EXPAND(RMASK)` (10_state.md R43; log 10). -/
def State.range (s : State) : TweakRange := expand s.rmask

/-- The single-bit mask of key bit `b` within its byte, `0x80 >> (b mod 8)` (00_scope.md R13). -/
def keyBitMask (b : Nat) : Byte := 0x80#8 >>> (b % 8)

/-- The value of key bit `b`: bit `7 - (b mod 8)` of byte `b div 8` (00_scope.md R13). -/
def keyBit (k : Key) (b : KeyBit) : Bool := (k[b.val / 8]).getLsbD (7 - b.val % 8)

/-- The key with bit `b` flipped: `t[b div 8] <- t[b div 8] ^ (0x80 >> (b mod 8))` (41_tweak_key_deriver.md R110). -/
def flipKeyBit (t : Key) (b : KeyBit) : Key :=
  t.set (b.val / 8) (t[b.val / 8] ^^^ keyBitMask b.val)

/-- Offset flag `f[i]`, for `i` in `0..23` (41_tweak_key_deriver.md R110). -/
def offsetFlag (o : Word) (i : Nat) : Bool := decide (i < 24) && o.getLsbD i

/-- `DERIVE(k, o, R)` (41_tweak_key_deriver.md R110): a copy of `k` in which each bit of `R` whose offset flag is set is
flipped. -/
@[irreducible] def derive (p : Params) (k : Key) (o : Word) (R : TweakRange) : Key :=
  R.foldl (fun t b => if offsetFlag o (p.tweakPattern b) then flipKeyBit t b else t) k

/-- `a ^ b` on keys, byte by byte (41_tweak_key_deriver.md R112). -/
def xorKey (a b : Key) : Key := Vector.ofFn fun i => a[i] ^^^ b[i]

/-- The byte whose bit `7 - j` is `f j`, for `j` in `0..7`: the bit order of 00_scope.md R13. -/
def byteOfBits (f : Nat → Bool) : Byte :=
  (List.range 8).foldl (fun acc j => if f j then acc ||| keyBitMask j else acc) 0

/-- The tweak `TW(o, R)`: the key whose bit `b` is 1 exactly when `b` is in `R` and `o[TWEAK_PATTERN[b]] = 1`
(41_tweak_key_deriver.md R112). -/
def tweak (p : Params) (o : Word) (R : TweakRange) : Key :=
  Vector.ofFn fun i => byteOfBits fun j =>
    if h : 8 * i.val + j < 256 then
      decide (⟨8 * i.val + j, h⟩ ∈ R) && o.getLsbD (p.tweakPattern ⟨8 * i.val + j, h⟩)
    else false

end Sys2Proof.Machine
end

