-- ==== Sys2Proof/Machine/Engine.lean ====
section
/-! DEFINITION. The Block Cipher Engine's re-keying and the byte-order-reversal cipher wrapper (42_cipher_engine.md). -/

namespace Sys2Proof.Machine

/-- `rev(x)[i] = x[15 - i]` (00_scope.md R8). -/
def rev (x : Block) : Block := Vector.ofFn fun i => x[15 - i.val]

/-- `WRAP(dir, key, x)`: the cipher direction OPPOSITE to the requested one, between two byte reversals
(42_cipher_engine.md R140, R141). -/
@[irreducible] def wrap (p : Params) (dir : Bool) (key : Key) (x : Block) : Block :=
  rev (if dir then p.cipherE key (rev x) else p.cipherD key (rev x))

/-- The re-key test of `ENGINE_KEY`: the engine is `Uninitialized` or `o mod 32 = 0` (42_cipher_engine.md R131). -/
def State.mustRekey (s : State) (o : Word) : Bool := !s.keyed || decide (o.toNat % 32 = 0)

/-- `ENGINE_KEY(o)` (42_cipher_engine.md R131): the state after it; the key it returns is that state's `tkey`. -/
def engineKey (p : Params) (o : Word) (s : State) : State :=
  if s.mustRekey o then { s with tkey := derive p s.mkey o s.range, keyedAt := o, keyed := true } else s

/-- The engine becomes `Uninitialized` (10_state.md R37, R44; 42_cipher_engine.md R130). -/
def clearEngine (s : State) : State :=
  { s with keyed := false, keyedAt := 0, tkey := zeroBytes 32 }

end Sys2Proof.Machine
end

