-- ==== Sys2Proof/Machine/Flags.lean ====
section
/-! DEFINITION. The fields of `STATUS` as bits, and the tests of the run state (10_state.md R29, R36). -/

namespace Sys2Proof.Machine

/-- The code of an error (60_exceptions.md R180). -/
def ErrCode.code : ErrCode → BitVec 4
  | .ok => 0
  | .invalidAddress => 1
  | .invalidKeyLength => 2
  | .shortBlockOnDecrypt => 3
  | .noKey => 4
  | .sequence => 5
  | .reservedCommand => 6
  | .invalidArgument => 7

/-- The code of a run state (10_state.md R36). -/
def RunState.code : RunState → BitVec 2
  | .idle => 0
  | .active => 1
  | .final => 2
  | .done => 3

/-- The code of a key size (10_state.md R41). -/
def KeySize.code : KeySize → BitVec 2
  | .none => 0
  | .bytes24 => 1
  | .bytes32 => 2

/-- A run is active: `RUNST in {ACTIVE, FINAL}` (10_state.md R36). -/
def State.runActive (s : State) : Bool :=
  match s.runst with
  | .active => true
  | .final => true
  | .idle => false
  | .done => false

/-- `STATUS` as the 32-bit word of 10_state.md R29: reserved 31:18, `KEYSIZE` 17:16, `PADLEN` 15:11, `WARN_PAD` 10,
`WARN_MASK0` 9, `ABORTED` 8, `KEYED` 7, `KEY_VALID` 6, `RUNST` 5:4, `ERR` 3:0. -/
def State.statusWord (s : State) : Word :=
  (0 : BitVec 14) ++ s.keySize.code ++ s.padLen ++ BitVec.ofBool s.warnPad ++ BitVec.ofBool s.warnMask0
    ++ BitVec.ofBool s.aborted ++ BitVec.ofBool s.keyed ++ BitVec.ofBool s.keyValid ++ s.runst.code ++ s.err.code

/-- `PADLEN <- 16 - n` for a short block of `n` bytes (10_state.md R40). -/
def padLength (n : Nat) : BitVec 5 := BitVec.ofNat 5 (16 - n)

end Sys2Proof.Machine
end

