-- ==== Sys2Proof/Machine/Operands.lean ====
section
/-! DEFINITION. The implicit operands of the commands (30_encoding.md R82): the fields of `CFG`, the raw key in
`KEYSTG`, and the bytes of a bus value. -/

namespace Sys2Proof.Machine

/-- Byte `j` of an access value, bits `[8j+7 : 8j]` (20_memory.md R53). -/
def byteOf (v : Word) (j : Nat) : Byte := v.extractLsb' (8 * j) 8

/-- `CFG.MASK = CFG[3:0]` (10_state.md R31). -/
def State.cfgMask (s : State) : BitVec 4 := s.cfg.extractLsb' 0 4

/-- `CFG.DIR = CFG[4]`, true for decrypt (10_state.md R31). -/
def State.cfgDir (s : State) : Bool := s.cfg.getLsbD 4

/-- `BASE mod 16 = 0`, the alignment `START` asks for (43_commands.md R156). -/
def State.baseAligned (s : State) : Bool := decide (s.base.toNat % 16 = 0)

/-- The master key from a 24-byte raw key `K` in bytes 0..23 of the staging buffer: `K ++ K[8:16]`. Bytes 24..31 of the
buffer are not read (43_commands.md R153). -/
def extendKey24 (k : Bytes 32) : Key :=
  Vector.ofFn fun i => if i.val < 24 then k[i] else k[i.val - 16]

end Sys2Proof.Machine
end

