-- ==== Sys2Proof/Machine/Ops.lean ====
section
/-! DEFINITION. The operations the commands share: raising an error and the abort it makes (60_exceptions.md), the shape
of a command (43_commands.md R150), and what each successful command writes. -/

namespace Sys2Proof.Machine

/-- `STATUS.ERR <- e` (10_state.md R35). -/
def setErr (e : ErrCode) (s : State) : State := { s with err := e }

/-- `ABORT()` (60_exceptions.md R184). -/
def abortRun (s : State) : State := { clearEngine s with runst := .idle, aborted := true }

/-- `FAIL(e)`: raising an error, TKD's one kind of exception. It records the code, aborts the run if one is active, and
writes nothing else (43_commands.md R150; 60_exceptions.md R181). -/
def fail (e : ErrCode) (s : State) : State :=
  if s.runActive then abortRun (setErr e s) else setErr e s

/-- A command: all its checks, then either its effect or `FAIL` (43_commands.md R150). -/
def runChecked (check : Option ErrCode) (effect : State → State) (s : State) : Host.Outcome State Fault Refusal :=
  match check with
  | some e => .next (fail e s)
  | none => .next (effect s)

/-- `MKEY` is loaded and `KEYSTG` cleared (43_commands.md R152). -/
def installKey (k : Key) (size : KeySize) (s : State) : State :=
  { s with mkey := k, keyValid := true, keySize := size, keystg := zeroBytes 32, err := .ok }

/-- The effect of `START` (43_commands.md R157). `RANGE` is a view of `rmask`. -/
def beginRun (s : State) : State :=
  { clearEngine s with
    rmask := s.cfgMask
    rdir := s.cfgDir
    offset := s.base
    blkcnt := 0
    runst := .active
    aborted := false
    warnMask0 := decide (s.cfgMask = 0)
    warnPad := false
    padLen := 0
    err := .ok }

/-- The effect of `END` (43_commands.md R162). -/
def endRun (s : State) : State := { clearEngine s with runst := .done, err := .ok }

/-- A short block of `n` bytes was padded: the diagnostic, and the run accepts only `END` from here
(43_commands.md R160, R161). -/
def notePad (n : Nat) (s : State) : State :=
  { s with warnPad := true, padLen := padLength n, runst := .final }

/-- The transform and the advance of `BLOCK_DATA(n)`, the engine being keyed for the block (43_commands.md R160). -/
def emitBlock (p : Params) (n : Nat) (s : State) : State :=
  { s with
    dout := wrap p s.rdir s.tkey s.din
    offset := s.offset + BitVec.ofNat 32 n
    blkcnt := s.blkcnt + 1
    err := .ok }

/-- `BLOCK_DATA(n)` (43_commands.md R160). -/
def blockData (p : Params) (n : Nat) (s : State) : State :=
  let t := emitBlock p n (engineKey p s.offset s)
  if n < 16 then notePad n t else t

end Sys2Proof.Machine
end

