-- ==== Sys2Proof/Machine/Commands.lean ====
section
/-! DEFINITION. The meaning of every command (43_commands.md): its checks in the order of 60_exceptions.md R185, then its
effect. Each takes the `ARG` of the command word. -/

namespace Sys2Proof.Machine

/-- The check of `NOP` (43_commands.md R151). -/
def nopCheck (n : Nat) : Option ErrCode := if n ≠ 0 then some .invalidArgument else none

/-- `NOP` (43_commands.md R151). -/
def execNop (n : Nat) (s : State) : Host.Outcome State Fault Refusal :=
  runChecked (nopCheck n) (setErr .ok) s

/-- The checks of `LOAD_KEY`, in order (43_commands.md R152). -/
def loadKeyCheck (n : Nat) (s : State) : Option ErrCode :=
  if s.runActive then some .sequence
  else if n ≠ 24 ∧ n ≠ 32 then some .invalidKeyLength
  else none

/-- The effect of `LOAD_KEY`: a 32-byte key passes through, a 24-byte key is extended (43_commands.md R152, R153). -/
def loadKeyEffect (n : Nat) (s : State) : State :=
  if n = 32 then installKey s.keystg .bytes32 s else installKey (extendKey24 s.keystg) .bytes24 s

/-- `LOAD_KEY n` (43_commands.md R152). -/
def execLoadKey (n : Nat) (s : State) : Host.Outcome State Fault Refusal :=
  runChecked (loadKeyCheck n s) (loadKeyEffect n) s

/-- The checks of `START`, in order (43_commands.md R156). -/
def startCheck (n : Nat) (s : State) : Option ErrCode :=
  if n ≠ 0 then some .invalidArgument
  else if !s.baseAligned then some .invalidAddress
  else if !s.keyValid then some .noKey
  else none

/-- `START` (43_commands.md R155 to R157). -/
def execStart (n : Nat) (s : State) : Host.Outcome State Fault Refusal :=
  runChecked (startCheck n s) beginRun s

/-- The checks of `BLOCK`, in order (43_commands.md R159). -/
def blockCheck (n : Nat) (s : State) : Option ErrCode :=
  if 16 < n then some .invalidArgument
  else if ¬(s.runst = .active ∨ (s.runst = .final ∧ n = 0)) then some .sequence
  else if 1 ≤ n ∧ n ≤ 15 ∧ s.rdir = true then some .shortBlockOnDecrypt
  else none

/-- The effect of `BLOCK`: end of stream for `n = 0`, else a data-carrying block (43_commands.md R159). -/
def blockEffect (p : Params) (n : Nat) (s : State) : State :=
  if n = 0 then endRun s else blockData p n s

/-- `BLOCK n` under given parameters (43_commands.md R159 to R162). -/
def execBlockWith (p : Params) (n : Nat) (s : State) : Host.Outcome State Fault Refusal :=
  runChecked (blockCheck n s) (blockEffect p n) s

/-- `BLOCK n` of the machine. -/
def execBlock (n : Nat) (s : State) : Host.Outcome State Fault Refusal :=
  execBlockWith Config.params n s

end Sys2Proof.Machine
end

