-- ==== Sys2Proof/Machine/Dispatch.lean ====
section
/-! DEFINITION. One arm per command. -/

namespace Sys2Proof.Machine

def exec (i : Instr) (s : State) : Host.Outcome State Fault Refusal :=
  match i with
  | .nop n => Sys2Proof.Machine.execNop n s
  | .loadKey n => Sys2Proof.Machine.execLoadKey n s
  | .start n => Sys2Proof.Machine.execStart n s
  | .block n => Sys2Proof.Machine.execBlock n s

end Sys2Proof.Machine
end

