-- ==== Sys2Proof/Machine/Window.lean ====
section
/-! DEFINITION. The register window (20_memory.md R52): what a byte of it reads as, and what a write to it stores. -/

namespace Sys2Proof.Machine

/-- Legal accesses (20_memory.md R56): width 1, 2 or 4, aligned, inside the window, and 32 bits wide in the control
region. -/
abbrev LegalAccess (off width : Nat) : Prop :=
  (width = 1 ∨ width = 2 ∨ width = 4) ∧ off % width = 0 ∧ off + width ≤ 256 ∧ (off < 0x20 → width = 4)

/-- The 32-bit value a read of the control region gives at register number `r`, offset `4r` (20_memory.md R52): `CMD` and
the reserved register read 0 (R57), `CFG[31:5]` reads 0 (10_state.md R31). -/
def controlWord (s : State) (r : Nat) : Word :=
  match r with
  | 1 => s.statusWord
  | 2 => s.cfg.setWidth 32
  | 3 => s.base
  | 4 => s.offset
  | 5 => s.keyedAt
  | 6 => s.blkcnt
  | _ => 0

/-- What window byte `o` reads as (20_memory.md R52, R53, R57): `KEYSTG` and the reserved bytes read 0. -/
def windowByte (s : State) (o : Nat) : Byte :=
  if o < 0x20 then byteOf (controlWord s (o / 4)) (o % 4)
  else if h : 0x40 ≤ o ∧ o < 0x50 then s.din[o - 0x40]
  else if h : 0x50 ≤ o ∧ o < 0x60 then s.dout[o - 0x50]
  else 0

/-- The data of a read, zero-extended: byte `j` is window byte `off + j` (20_memory.md R53, R54, R57). -/
def readWindow (s : State) (off width : Nat) : Word :=
  (List.range width).foldl (fun v j => v ||| ((windowByte s (off + j)).setWidth 32 <<< (8 * j))) 0

/-- A write of one byte at or above the buffer region: `KEYSTG` and `DIN` store it, `DOUT` and reserved bytes ignore it
(20_memory.md R52, R58). -/
def writeByte (o : Nat) (b : Byte) (s : State) : State :=
  if h : 0x20 ≤ o ∧ o < 0x40 then { s with keystg := s.keystg.set (o - 0x20) b }
  else if h : 0x40 ≤ o ∧ o < 0x50 then { s with din := s.din.set (o - 0x40) b }
  else s

/-- A 32-bit write to the control region other than to `CMD`: `CFG` keeps bits 4:0, `BASE` keeps all, the others ignore
it (20_memory.md R58). -/
def writeControl (off : Nat) (v : Word) (s : State) : State :=
  if off = 0x08 then { s with cfg := v.setWidth 5 }
  else if off = 0x0C then { s with base := v }
  else s

/-- A legal write other than to `CMD` (20_memory.md R54, R58). -/
def writeWindow (off width : Nat) (v : Word) (s : State) : State :=
  if off < 0x20 then writeControl off v s
  else (List.range width).foldl (fun t j => writeByte (off + j) (byteOf v j) t) s

end Sys2Proof.Machine
end

