-- ==== Sys2Proof/Machine/Bus.lean ====
section
/-! DEFINITION. The host's moves: a command write, a bus access, the reset input, and the queue they wait in
(20_memory.md R50, R55 to R58, R62; 70_reset_and_hazards.md R210). -/

namespace Sys2Proof.Machine

/-- The machine answers the host's move. -/
def answer (r : Response) (s : State) : State := { s with resp := r }

/-- `EXEC(w)`: a word written to `CMD` (43_commands.md R150). A word that encodes no command raises `RESERVED_COMMAND`
(30_encoding.md R83, R84). -/
def runCommand (w : Word) (s : State) : Host.Outcome State Fault Refusal :=
  match decode w with
  | .ok i => exec i s
  | .error _ => .next (fail .reservedCommand s)

/-- A read (20_memory.md R55, R57). -/
def serveRead (off width : Nat) (s : State) : Host.Outcome State Fault Refusal :=
  if LegalAccess off width then .next (answer (.data (readWindow s off width)) s)
  else .next (answer (.fault .busError) s)

/-- A write (20_memory.md R55, R58): to `CMD` it executes a command. -/
def serveWrite (off width : Nat) (v : Word) (s : State) : Host.Outcome State Fault Refusal :=
  if LegalAccess off width then
    if off = 0 then runCommand v (answer .written s) else .next (writeWindow off width v (answer .written s))
  else .next (answer (.fault .busError) s)

/-- The reset input: every state element takes its reset value, whatever the state was (70_reset_and_hazards.md R210).
The moves the host makes afterwards still wait. -/
def applyReset (s : State) : State := { State.reset with bus := s.bus }

/-- One move of the host, with all its effects (20_memory.md R50). -/
def serve (m : HostMove) (s : State) : Host.Outcome State Fault Refusal :=
  match m with
  | .read off width => serveRead off width s
  | .write off width v => serveWrite off width v s
  | .reset => .next (applyReset s)

/-- The oldest waiting move takes effect (20_memory.md R62). With none waiting nothing changes: TKD performs no step of
its own (10_state.md R20; log 4). -/
def serveNext (s : State) : Host.Outcome State Fault Refusal :=
  match s.bus with
  | [] => .next s
  | m :: rest => serve m { s with bus := rest }

/-- The write of a command word to `CMD` by one aligned 32-bit write (30_encoding.md R80). -/
def commandWrite (w : Word) : HostMove := .write 0x00 4 w

/-- A command write put before every waiting move. -/
def nextCommand (w : Word) (s : State) : State := { s with bus := commandWrite w :: s.bus }

/-- The window offset of a bus address, where it lies in the window (20_memory.md R50; log 3). -/
def windowOffset (addr : Nat) : Option Nat :=
  if Config.mmioBase ≤ addr ∧ addr < Config.mmioBase + 256 then some (addr - Config.mmioBase) else none

/-- The host issues a move, after those it has issued (20_memory.md R62). -/
def issue (m : HostMove) (s : State) : State := { s with bus := s.bus ++ [m] }

/-- The host issues `MemRead(addr, width)`. An address outside the window is no access to TKD (20_memory.md R60). -/
def State.hostRead (s : State) (addr width : Nat) : State :=
  match windowOffset addr with
  | some off => issue (.read off width) s
  | none => s

/-- The host issues `MemWrite(addr, width, v)`. An address outside the window is no access to TKD (20_memory.md R60). -/
def State.hostWrite (s : State) (addr width : Nat) (v : Word) : State :=
  match windowOffset addr with
  | some off => issue (.write off width v) s
  | none => s

end Sys2Proof.Machine
end

