-- ==== Sys2Proof/Machine/Step.lean ====
section
/-! DEFINITION. One step of the machine: the host's oldest waiting move takes effect. -/

namespace Sys2Proof.Machine

/-- One atomic step (20_memory.md R50). -/
def step (s : State) : Host.Outcome State Fault Refusal := serveNext s

/-- The state whose next host move writes the command word with low bits `w` to `CMD` (log 7). TKD fetches nothing
(10_state.md R27): a command reaches it only so. -/
def State.withFetchWord (s : State) (nbits w : Nat) : State := nextCommand (tableWord nbits w) s

end Sys2Proof.Machine
end

