-- ==== Sys2Proof/Machine/Assembly.lean ====
section
/-! DEFINITION. The statements and pseudo-instructions of the spec's host assembly (30_encoding.md R86, R87). -/

namespace Sys2Proof.Machine

/-- A statement of a host program (30_encoding.md R86, R87). -/
inductive Statement where
  | w32 (off : Nat) (v : Word)
  | w16 (off : Nat) (v : Word)
  | w8 (off : Nat) (v : Word)
  | r32 (off : Nat)
  | r16 (off : Nat)
  | r8 (off : Nat)
  | nop
  | loadKey (n : Nat)
  | start
  | block (n : Nat)
  | endRun
  | loadKey32
  | loadKey24
  | block16
  | setCfg (mask : BitVec 4) (dir : Bool)
  | setBase (a : Word)
deriving DecidableEq, Repr

/-- The host move a statement means (30_encoding.md R86, R87). -/
def Statement.move : Statement → HostMove
  | .w32 off v => .write off 4 v
  | .w16 off v => .write off 2 v
  | .w8 off v => .write off 1 v
  | .r32 off => .read off 4
  | .r16 off => .read off 2
  | .r8 off => .read off 1
  | .nop => commandWrite (encode (.nop 0))
  | .loadKey n => commandWrite (encode (.loadKey n))
  | .start => commandWrite (encode (.start 0))
  | .block n => commandWrite (encode (.block n))
  | .endRun => commandWrite (encode (.block 0))
  | .loadKey32 => commandWrite (encode (.loadKey 32))
  | .loadKey24 => commandWrite (encode (.loadKey 24))
  | .block16 => commandWrite (encode (.block 16))
  | .setCfg mask dir => .write 0x08 4 (((BitVec.ofBool dir).setWidth 32 <<< 4) ||| mask.setWidth 32)
  | .setBase a => .write 0x0C 4 a

/-- The host issues a program, statement by statement (20_memory.md R62). -/
def issueProgram (prog : List Statement) (s : State) : State := { s with bus := s.bus ++ prog.map Statement.move }

end Sys2Proof.Machine
end

