-- ==== Sys2Proof/Safety.lean ====
section
/-! DEFINITION. What counts as a safe run, in the terms the statements use: the invariants of 10_state.md R45, the end of
a run, and the body of a run (70_reset_and_hazards.md R213, R214). -/

namespace Sys2Proof.Machine

/-- The invariants of 10_state.md R45, (a) to (g) in order. -/
structure Invariants (s : State) : Prop where
  active_has_key : s.runst = .active ∨ s.runst = .final → s.keyValid = true
  active_offset_aligned : s.runst = .active → s.offset.toNat % 16 = 0
  unkeyed_is_clear : s.keyed = false → s.keyedAt = 0 ∧ s.tkey = zeroBytes 32
  keyed_in_run : s.keyed = true →
    (s.runst = .active ∨ s.runst = .final) ∧ s.keyedAt.toNat % 16 = 0
      ∧ s.tkey = derive Config.params s.mkey s.keyedAt s.range
  keyed_region : s.keyed = true → s.runst = .active → s.keyedAt.toNat / 32 = (s.offset - 16).toNat / 32
  final_is_padded : s.runst = .final → s.warnPad = true ∧ 1 ≤ s.padLen.toNat ∧ s.padLen.toNat ≤ 15
  keySize_none_iff : s.keySize = .none ↔ s.keyValid = false

/-- The next host move is a `CMD` write whose word decodes to `i`. -/
def State.issues (s : State) (i : Instr) : Prop :=
  ∃ w rest, s.bus = .write 0x00 4 w :: rest ∧ decode w = .ok i

/-- The next host move asserts reset. -/
def State.resetsNext (s : State) : Prop := ∃ rest, s.bus = .reset :: rest

/-- A run has ended normally, read right after its `END` (70_reset_and_hazards.md R214). -/
def State.endedNormally (s : State) : Prop := s.runst = .done ∧ s.err = .ok

/-- The last run has failed: the host must discard its output (70_reset_and_hazards.md R214, R226). -/
def State.runFailed (s : State) : Prop := s.aborted = true

/-- What `START` needs of the host (70_reset_and_hazards.md R212): a key loaded and an aligned base. -/
def State.readyToStart (s : State) : Prop := s.keyValid = true ∧ s.base.toNat % 16 = 0

/-- The body of a run over full blocks (70_reset_and_hazards.md R213): for each block the host fills `DIN`, issues
`BLOCK 16` and appends `DOUT` to its output. None where a block fails. -/
def transformBlocks : List Block → State → Option (List Block × State)
  | [], s => some ([], s)
  | x :: xs, s =>
    match exec (.block 16) { s with din := x } with
    | .next t =>
      if t.err = .ok then (transformBlocks xs t).map fun r => (t.dout :: r.1, r.2) else none
    | .fault _ => none
    | .refused _ => none

end Sys2Proof.Machine
end

