-- ==== Sys2Proof/Certificates/Slice0/Obligations.lean ====
section
/-! DEFINITION. The statements about TKD-1, each from a numbered rule of spec/ or resting on the sections its entry in
OBLIGATIONS.json cites. Where one rests on the model's own choice, its docstring names the log entry. The fields `bus`
and `resp` in them are the host's side of the bus (log 4, log 5). -/

open Sys2Proof Sys2Proof.Machine

/-! ### Decoding and encoding (30_encoding.md) -/

/-- The encoder's word of every well-formed command decodes to that command. -/
def Obligations.DecodeEncodeRoundTrip : Prop :=
  ∀ i : Instr, i.wellFormed = true → decode (encode i) = .ok i

/-- Each word that decodes is the one word of the well-formed command it decodes to: no accepted word carries a bit that
decoding drops. -/
def Obligations.EncodeDecodeRoundTrip : Prop :=
  ∀ (w : Word) (i : Instr), decode w = .ok i → i.wellFormed = true ∧ encode i = w

/-- The pseudocode of R85, in shifts and masks of the whole word. -/
def Obligations.DecodeFollowsPseudocode : Prop :=
  ∀ w : Word,
    decode w =
      if (w >>> 4) &&& 0xF#32 ≠ 0 ∨ w >>> 14 ≠ 0 then .error .reservedBits
      else if w &&& 0xF#32 = 0 then .ok (.nop ((w >>> 8) &&& 0x3F#32).toNat)
      else if w &&& 0xF#32 = 1 then .ok (.loadKey ((w >>> 8) &&& 0x3F#32).toNat)
      else if w &&& 0xF#32 = 2 then .ok (.start ((w >>> 8) &&& 0x3F#32).toNat)
      else if w &&& 0xF#32 = 3 then .ok (.block ((w >>> 8) &&& 0x3F#32).toNat)
      else .error .reservedOpcode

/-- The words of the table 'Encodings at a glance' decode to their commands. -/
def Obligations.GlanceWordsDecode : Prop :=
  decode 0x00000000#32 = .ok (.nop 0) ∧ decode 0x00001801#32 = .ok (.loadKey 24)
    ∧ decode 0x00002001#32 = .ok (.loadKey 32) ∧ decode 0x00000002#32 = .ok (.start 0)
    ∧ decode 0x00001003#32 = .ok (.block 16) ∧ decode 0x00000103#32 = .ok (.block 1)
    ∧ decode 0x00000F03#32 = .ok (.block 15) ∧ decode 0x00000003#32 = .ok (.block 0)

/-- The statements and pseudo-instructions of the assembly are the bus accesses R86 and R87 list. -/
def Obligations.AssemblyStatementsExpand : Prop :=
  (∀ (off : Nat) (v : Word), (Statement.w32 off v).move = .write off 4 v ∧ (Statement.w16 off v).move = .write off 2 v
      ∧ (Statement.w8 off v).move = .write off 1 v ∧ (Statement.r32 off).move = .read off 4
      ∧ (Statement.r16 off).move = .read off 2 ∧ (Statement.r8 off).move = .read off 1)
    ∧ Statement.nop.move = .write 0x00 4 0x00000000 ∧ Statement.start.move = .write 0x00 4 0x00000002
    ∧ (∀ n : Nat, n ≤ 63 → (Statement.loadKey n).move = .write 0x00 4 (BitVec.ofNat 32 (n * 256 + 1))
        ∧ (Statement.block n).move = .write 0x00 4 (BitVec.ofNat 32 (n * 256 + 3)))
    ∧ Statement.endRun.move = .write 0x00 4 0x00000003 ∧ Statement.loadKey32.move = .write 0x00 4 0x00002001
    ∧ Statement.loadKey24.move = .write 0x00 4 0x00001801 ∧ Statement.block16.move = .write 0x00 4 0x00001003
    ∧ (∀ (m : BitVec 4) (d : Bool), (Statement.setCfg m d).move
        = .write 0x08 4 (BitVec.ofNat 32 ((if d then 16 else 0) + m.toNat)))
    ∧ (∀ a : Word, (Statement.setBase a).move = .write 0x0C 4 a)

/-! ### Steps and bus accesses (20_memory.md) -/

/-- A `CMD` write runs the command its word decodes to, on the state whose queue has moved on and whose host has been
answered. -/
def Obligations.StepRunsDecodedCommand : Prop :=
  ∀ (s : State) (w : Word) (rest : List HostMove) (i : Instr),
    s.bus = .write 0x00 4 w :: rest → decode w = .ok i →
      step s = exec i { s with bus := rest, resp := .written }

/-- A `CMD` write of a word with a reserved bit set or a reserved opcode raises `RESERVED_COMMAND`, with the abort of an
active run, and does nothing else. -/
def Obligations.IllegalWordRaisesReservedCommand : Prop :=
  ∀ (s : State) (w : Word) (rest : List HostMove),
    s.bus = .write 0x00 4 w :: rest →
    ((w >>> 4) &&& 0xF#32 ≠ 0 ∨ w >>> 14 ≠ 0 ∨ 4 ≤ (w &&& 0xF#32).toNat) →
      step s = .next
        (if s.runst = .active ∨ s.runst = .final then
          { s with
            bus := rest, resp := .written, err := .reservedCommand
            runst := .idle, aborted := true, keyed := false, keyedAt := 0, tkey := zeroBytes 32 }
        else { s with bus := rest, resp := .written, err := .reservedCommand })

/-- In every state the machine answers the host's next move with a next state. That a step with no move waiting leaves
the state as it is, and that a bus error ends only its access, are the model's reading (log 4, log 6). -/
def Obligations.StepAlwaysAnswers : Prop :=
  ∀ s : State, ∃ t : State, step s = .next t

/-- A step takes the oldest waiting move and leaves the later ones in their order; the queue is the model's form of the
host's issue order (log 4). -/
def Obligations.MovesTakenInOrder : Prop :=
  ∀ (s t : State) (m : HostMove) (rest : List HostMove),
    s.bus = m :: rest → step s = .next t → t.bus = rest

/-- An access that R56 does not make legal ends with the bus error and no effect on any TKD state. That the machine then
goes on to the host's next move is the model's reading (log 6). -/
def Obligations.IllegalAccessChangesNothing : Prop :=
  ∀ (s : State) (off n : Nat) (v : Word) (rest : List HostMove),
    s.bus = .read off n :: rest ∨ s.bus = .write off n v :: rest →
    ¬((n = 1 ∨ n = 2 ∨ n = 4) ∧ off % n = 0 ∧ off + n ≤ 256 ∧ (off < 0x20 → n = 4)) →
      step s = .next { s with bus := rest, resp := .fault .busError }

/-- A legal read changes no state and returns, little-endian, the window bytes it covers. That the bytes above the width
are 0 is the model's choice for the answer it holds (log 5: DESIGN CHOICE). -/
def Obligations.LegalReadReturnsWindowBytes : Prop :=
  ∀ (s : State) (off n : Nat) (rest : List HostMove),
    s.bus = .read off n :: rest → LegalAccess off n →
      ∃ v : Word, step s = .next { s with bus := rest, resp := .data v }
        ∧ ∀ j : Nat, j < 4 → byteOf v j = if j < n then windowByte s (off + j) else 0

/-- What each byte of the window reads as: the register map. -/
def Obligations.WindowByteFollowsRegisterMap : Prop :=
  ∀ s : State,
    (∀ j : Nat, j < 4 →
      windowByte s (0x00 + j) = 0 ∧ windowByte s (0x04 + j) = byteOf s.statusWord j
        ∧ windowByte s (0x08 + j) = byteOf (s.cfg.setWidth 32) j ∧ windowByte s (0x0C + j) = byteOf s.base j
        ∧ windowByte s (0x10 + j) = byteOf s.offset j ∧ windowByte s (0x14 + j) = byteOf s.keyedAt j
        ∧ windowByte s (0x18 + j) = byteOf s.blkcnt j ∧ windowByte s (0x1C + j) = 0)
    ∧ (∀ i : Nat, i < 32 → windowByte s (0x20 + i) = 0)
    ∧ (∀ i : Fin 16, windowByte s (0x40 + i.val) = s.din[i] ∧ windowByte s (0x50 + i.val) = s.dout[i])
    ∧ (∀ o : Nat, 0x60 ≤ o → windowByte s o = 0)

/-- Every field of `STATUS` stands at the bits R29 gives it, with its numeric codes, and bits 31:18 are 0. -/
def Obligations.StatusFieldsInPlace : Prop :=
  (∀ s : State,
    s.statusWord.extractLsb' 0 4 = s.err.code ∧ s.statusWord.extractLsb' 4 2 = s.runst.code
      ∧ s.statusWord.getLsbD 6 = s.keyValid ∧ s.statusWord.getLsbD 7 = s.keyed ∧ s.statusWord.getLsbD 8 = s.aborted
      ∧ s.statusWord.getLsbD 9 = s.warnMask0 ∧ s.statusWord.getLsbD 10 = s.warnPad
      ∧ s.statusWord.extractLsb' 11 5 = s.padLen ∧ s.statusWord.extractLsb' 16 2 = s.keySize.code
      ∧ s.statusWord >>> 18 = 0)
    ∧ [ErrCode.ok, .invalidAddress, .invalidKeyLength, .shortBlockOnDecrypt, .noKey, .sequence, .reservedCommand,
        .invalidArgument].map ErrCode.code = [0, 1, 2, 3, 4, 5, 6, 7]
    ∧ [RunState.idle, .active, .final, .done].map RunState.code = [0, 1, 2, 3]
    ∧ [KeySize.none, .bytes24, .bytes32].map KeySize.code = [0, 1, 2]

/-- A legal write to the staging buffer stores its bytes in address order, leaves every other staging byte as it was,
and changes no other state. -/
def Obligations.StagingWriteStoresBytes : Prop :=
  ∀ (s : State) (off n : Nat) (v : Word) (rest : List HostMove),
    s.bus = .write off n v :: rest → LegalAccess off n → 0x20 ≤ off → off < 0x40 →
      ∃ g : Bytes 32, step s = .next { s with bus := rest, resp := .written, keystg := g }
        ∧ ∀ i : Fin 32, g[i] =
            if off ≤ 0x20 + i.val ∧ 0x20 + i.val < off + n then byteOf v (0x20 + i.val - off) else s.keystg[i]

/-- A legal write to `DIN` stores its bytes in address order, leaves every other byte of `DIN` as it was, and changes no
other state. -/
def Obligations.InputWriteStoresBytes : Prop :=
  ∀ (s : State) (off n : Nat) (v : Word) (rest : List HostMove),
    s.bus = .write off n v :: rest → LegalAccess off n → 0x40 ≤ off → off < 0x50 →
      ∃ d : Block, step s = .next { s with bus := rest, resp := .written, din := d }
        ∧ ∀ i : Fin 16, d[i] =
            if off ≤ 0x40 + i.val ∧ 0x40 + i.val < off + n then byteOf v (0x40 + i.val - off) else s.din[i]

/-- A 32-bit write to `CFG` keeps bits 4:0, so that `CFG` reads back `v & 0x1F`; one to `BASE` stores the value, which
reads back unchanged; neither changes other state. -/
def Obligations.ConfigurationWritesStore : Prop :=
  ∀ (s : State) (v : Word) (rest : List HostMove),
    (s.bus = .write 0x08 4 v :: rest →
      ∃ (c : BitVec 5) (t : State), step s = .next t ∧ t = { s with bus := rest, resp := .written, cfg := c }
        ∧ ∀ j : Nat, j < 4 → windowByte t (0x08 + j) = byteOf (v &&& 0x1F#32) j)
    ∧ (s.bus = .write 0x0C 4 v :: rest →
      ∃ t : State, step s = .next t ∧ t = { s with bus := rest, resp := .written, base := v }
        ∧ ∀ j : Nat, j < 4 → windowByte t (0x0C + j) = byteOf v j)

/-- Legal writes to `STATUS`, `OFFSET`, `KEYED_AT`, `BLKCNT`, `DOUT` and the reserved locations change no state. -/
def Obligations.ReadOnlyWritesIgnored : Prop :=
  ∀ (s : State) (off n : Nat) (v : Word) (rest : List HostMove),
    s.bus = .write off n v :: rest → LegalAccess off n →
    (off = 0x04 ∨ off = 0x10 ∨ off = 0x14 ∨ off = 0x18 ∨ off = 0x1C ∨ 0x50 ≤ off) →
      step s = .next { s with bus := rest, resp := .written }

/-- No read distinguishes two states that differ only in the master key, the staging buffer and the tweaked key. -/
def Obligations.KeysAreUnreadable : Prop :=
  ∀ (s t u : State) (k g tk : Bytes 32) (off n : Nat) (rest : List HostMove),
    s.bus = .read off n :: rest → step s = .next t →
    step { s with mkey := k, keystg := g, tkey := tk } = .next u → u.resp = t.resp

/-- A bus address of the window reaches the register at its distance from `MMIO_BASE`, behind the accesses issued
before it. That bus addresses are natural numbers without wrap and that accesses wait in a queue are the model's choices
(log 3, log 4: DESIGN CHOICE). -/
def Obligations.BusAddressReachesOffset : Prop :=
  ∀ (s : State) (o n : Nat) (v : Word), o < 256 →
    s.hostRead (Config.mmioBase + o) n = { s with bus := s.bus ++ [.read o n] }
      ∧ s.hostWrite (Config.mmioBase + o) n v = { s with bus := s.bus ++ [.write o n v] }

/-! ### Reset and the invariants (10_state.md, 70_reset_and_hazards.md) -/

/-- The reset input puts every element to its reset value, whatever the state was. That the host's later moves still
wait and that it has got no answer are the model's own (log 4, log 5). -/
def Obligations.ResetClearsEveryElement : Prop :=
  ∀ (s : State) (rest : List HostMove), s.bus = .reset :: rest →
    ∃ t : State, step s = .next t
      ∧ t = ({ mkey := Vector.replicate 32 0, keyValid := false, keystg := Vector.replicate 32 0
               din := Vector.replicate 16 0, dout := Vector.replicate 16 0, err := .ok, runst := .idle, keyed := false
               aborted := false, warnMask0 := false, warnPad := false, padLen := 0, keySize := .none, offset := 0
               cfg := 0, base := 0, keyedAt := 0, blkcnt := 0, rmask := 0, rdir := false
               tkey := Vector.replicate 32 0, bus := rest, resp := .none } : State)
      ∧ t.statusWord = 0x00000000#32 ∧ t.range = []

/-- The invariants hold in the reset state. -/
def Obligations.ResetSatisfiesInvariants : Prop := Invariants State.reset

/-- Every step keeps the invariants, from every state that has them. -/
def Obligations.StepKeepsInvariants : Prop :=
  ∀ s t : State, Invariants s → step s = .next t → Invariants t

/-- The invariants (a) to (g) hold in every state reachable from reset, whatever moves the host makes. -/
def Obligations.InvariantsHoldWhenReachable : Prop :=
  ∀ (moves : List HostMove) (k : Nat) (t : State),
    core.run k { State.reset with bus := moves } = .next t → Invariants t

/-! ### The commands (43_commands.md, 60_exceptions.md) -/

/-- Raising an error writes its code, aborts the run if one is active, and writes nothing else. -/
def Obligations.FailRecordsAndAborts : Prop :=
  ∀ (e : ErrCode) (s : State),
    fail e s =
      if s.runst = .active ∨ s.runst = .final then
        { s with
          err := e, runst := .idle, aborted := true, keyed := false, keyedAt := 0, tkey := Vector.replicate 32 0 }
      else { s with err := e }

/-- A command that reports an error has no effect but that of raising it. -/
def Obligations.FailedCommandOnlyFails : Prop :=
  ∀ (i : Instr) (s t : State), exec i s = .next t → t.err ≠ .ok → t = fail t.err s

/-- Every command word reports the first failing check in the order of R185, and 0 where none fails. -/
def Obligations.ErrorPriority : Prop :=
  ∀ (s t : State) (w : Word) (rest : List HostMove) (op arg : Nat),
    s.bus = .write 0x00 4 w :: rest → op = (w &&& 0xF#32).toNat → arg = ((w >>> 8) &&& 0x3F#32).toNat →
    step s = .next t →
      t.err =
        if 4 ≤ op ∨ (w >>> 4) &&& 0xF#32 ≠ 0 ∨ w >>> 14 ≠ 0 then .reservedCommand
        else if ((op = 0 ∨ op = 2) ∧ arg ≠ 0) ∨ (op = 3 ∧ 16 < arg) then .invalidArgument
        else if (op = 1 ∧ (s.runst = .active ∨ s.runst = .final))
            ∨ (op = 3 ∧ (s.runst = .idle ∨ s.runst = .done)) ∨ (op = 3 ∧ 1 ≤ arg ∧ s.runst = .final) then .sequence
        else if op = 1 ∧ arg ≠ 24 ∧ arg ≠ 32 then .invalidKeyLength
        else if op = 2 ∧ s.base.toNat % 16 ≠ 0 then .invalidAddress
        else if op = 2 ∧ s.keyValid = false then .noKey
        else if op = 3 ∧ 1 ≤ arg ∧ arg ≤ 15 ∧ s.rdir = true then .shortBlockOnDecrypt
        else .ok

/-- `NOP` clears `ERR` and changes nothing else, in every state; with a non-zero argument it fails. -/
def Obligations.NopClearsErrOnly : Prop :=
  ∀ s : State, exec (.nop 0) s = .next { s with err := .ok }
    ∧ ∀ n : Nat, n ≠ 0 → exec (.nop n) s = .next (fail .invalidArgument s)

/-- `LOAD_KEY 32` with no run active copies the staging buffer into the master key, clears the buffer, and changes only
what is listed. -/
def Obligations.LoadKey32Completes : Prop :=
  ∀ s : State, s.runst = .idle ∨ s.runst = .done →
    exec (.loadKey 32) s = .next
      { s with mkey := s.keystg, keyValid := true, keySize := .bytes32, keystg := Vector.replicate 32 0, err := .ok }

/-- `LOAD_KEY 24` with no run active loads `K ++ K[8:16]` for the raw key `K` in staging bytes 0 to 23, clears the
buffer, and changes only what is listed. -/
def Obligations.LoadKey24ExtendsKey : Prop :=
  ∀ s : State, s.runst = .idle ∨ s.runst = .done →
    ∃ k : Key,
      exec (.loadKey 24) s = .next
        { s with mkey := k, keyValid := true, keySize := .bytes24, keystg := Vector.replicate 32 0, err := .ok }
      ∧ k.toList = s.keystg.toList.take 24 ++ (s.keystg.toList.take 16).drop 8

/-- `LOAD_KEY` fails with `SEQUENCE` while a run is active, whatever its argument, and with `INVALID_KEY_LENGTH` for any
length but 24 and 32 when none is. -/
def Obligations.LoadKeyFailures : Prop :=
  ∀ (s : State) (n : Nat),
    (s.runst = .active ∨ s.runst = .final → exec (.loadKey n) s = .next (fail .sequence s))
    ∧ (s.runst = .idle ∨ s.runst = .done → n ≠ 24 → n ≠ 32 →
        exec (.loadKey n) s = .next { s with err := .invalidKeyLength })

/-- `START` in any run state, with a key loaded and an aligned base, begins a run and changes only what is listed. -/
def Obligations.StartBeginsRun : Prop :=
  ∀ s : State, s.base.toNat % 16 = 0 → s.keyValid = true →
    ∃ t : State, exec (.start 0) s = .next t
      ∧ t = { s with
              rmask := s.cfg.extractLsb' 0 4, rdir := s.cfg.getLsbD 4, offset := s.base, keyed := false, keyedAt := 0
              tkey := Vector.replicate 32 0, blkcnt := 0, runst := .active, aborted := false
              warnMask0 := decide (s.cfg.extractLsb' 0 4 = 0), warnPad := false, padLen := 0, err := .ok }
      ∧ t.range = expand (s.cfg.extractLsb' 0 4)

/-- The checks of `START`, in order. -/
def Obligations.StartChecksInOrder : Prop :=
  ∀ s : State,
    (∀ n : Nat, n ≠ 0 → exec (.start n) s = .next (fail .invalidArgument s))
    ∧ (s.base.toNat % 16 ≠ 0 → exec (.start 0) s = .next (fail .invalidAddress s))
    ∧ (s.base.toNat % 16 = 0 → s.keyValid = false → exec (.start 0) s = .next (fail .noKey s))

/-- A second `START` right after a successful one changes nothing. -/
def Obligations.StartTwiceIsStartOnce : Prop :=
  ∀ s t : State, exec (.start 0) s = .next t → t.err = .ok → exec (.start 0) t = .next t

/-- `BLOCK n` with `n` in 1..16 in an active run (a short one only when encrypting): re-keys if due, transforms all 16
bytes of `DIN` whatever the pad holds, advances by `n`, notes a pad, and changes only what is listed. -/
def Obligations.BlockTransformsData : Prop :=
  ∀ (s : State) (n : Nat), s.runst = .active → 1 ≤ n → n ≤ 16 → (n = 16 ∨ s.rdir = false) →
    ∃ (k : Key) (at' : Word),
      (s.keyed = false ∨ s.offset.toNat % 32 = 0 →
        k = derive Config.params s.mkey s.offset s.range ∧ at' = s.offset)
      ∧ (¬(s.keyed = false ∨ s.offset.toNat % 32 = 0) → k = s.tkey ∧ at' = s.keyedAt)
      ∧ exec (.block n) s = .next
          { s with
            tkey := k, keyedAt := at', keyed := true, dout := wrap Config.params s.rdir k s.din
            offset := s.offset + BitVec.ofNat 32 n, blkcnt := s.blkcnt + 1, err := .ok
            warnPad := if n < 16 then true else s.warnPad
            padLen := if n < 16 then BitVec.ofNat 5 (16 - n) else s.padLen
            runst := if n < 16 then .final else .active }

/-- `BLOCK 0` in an active run ends it normally and changes only what is listed. -/
def Obligations.EndOfStreamEndsRun : Prop :=
  ∀ s : State, s.runst = .active ∨ s.runst = .final →
    exec (.block 0) s = .next
      { s with runst := .done, keyed := false, keyedAt := 0, tkey := Vector.replicate 32 0, err := .ok }

/-- The checks of `BLOCK`, in order. -/
def Obligations.BlockChecksInOrder : Prop :=
  ∀ (s : State) (n : Nat),
    (16 < n → exec (.block n) s = .next (fail .invalidArgument s))
    ∧ (n ≤ 16 → (s.runst = .idle ∨ s.runst = .done ∨ (s.runst = .final ∧ 1 ≤ n)) →
        exec (.block n) s = .next (fail .sequence s))
    ∧ (1 ≤ n → n ≤ 15 → s.runst = .active → s.rdir = true →
        exec (.block n) s = .next (fail .shortBlockOnDecrypt s))

/-! ### Promises about the whole machine -/

/-- Only `START` enters `ACTIVE`, only a short `BLOCK` enters `FINAL`, only `BLOCK 0` enters `DONE`, only an error that
aborts an active run, or reset, enters `IDLE`. -/
def Obligations.RunStateTransitions : Prop :=
  ∀ s t : State, step s = .next t →
    (t.runst = .active → s.runst = .active ∨ (s.issues (.start 0) ∧ t.err = .ok))
    ∧ (t.runst = .final → s.runst = .final ∨ ∃ n, 1 ≤ n ∧ n ≤ 15 ∧ s.issues (.block n) ∧ t.err = .ok)
    ∧ (t.runst = .done → s.runst = .done ∨ (s.issues (.block 0) ∧ t.err = .ok))
    ∧ (t.runst = .idle → s.runst = .idle ∨ s.resetsNext
        ∨ ((s.runst = .active ∨ s.runst = .final) ∧ t.err ≠ .ok ∧ t.aborted = true))

/-- Only a successful `LOAD_KEY`, with no run active, and reset change the master key, `KEY_VALID` or `KEYSIZE`. -/
def Obligations.MasterKeyChangesOnlyByLoadKey : Prop :=
  ∀ s t : State, step s = .next t → t.mkey ≠ s.mkey ∨ t.keyValid ≠ s.keyValid ∨ t.keySize ≠ s.keySize →
    s.resetsNext
    ∨ ((s.issues (.loadKey 24) ∨ s.issues (.loadKey 32)) ∧ (s.runst = .idle ∨ s.runst = .done)
        ∧ t.keyValid = true ∧ t.err = .ok)

/-- Only a successful data-carrying `BLOCK` and reset change `DOUT`. -/
def Obligations.OutputChangesOnlyByDataBlock : Prop :=
  ∀ s t : State, step s = .next t → t.dout ≠ s.dout →
    s.resetsNext ∨ ∃ n, 1 ≤ n ∧ n ≤ 16 ∧ s.issues (.block n) ∧ t.err = .ok

/-- The mask and direction of the run, and so its range, change only at a successful `START` or reset. -/
def Obligations.LatchedParametersChangeOnlyAtStart : Prop :=
  ∀ s t : State, step s = .next t → t.rmask ≠ s.rmask ∨ t.rdir ≠ s.rdir ∨ t.range ≠ s.range →
    s.resetsNext ∨ (s.issues (.start 0) ∧ t.err = .ok)

/-- No step but a command write, or reset, changes `ERR` or anything else of the run. -/
def Obligations.OnlyCommandsAffectTheRun : Prop :=
  ∀ s t : State, step s = .next t → ¬s.resetsNext → (¬∃ w rest, s.bus = .write 0x00 4 w :: rest) →
    ∃ (g : Bytes 32) (d : Block) (c : BitVec 5) (b : Word) (q : List HostMove) (r : Response),
      t = { s with keystg := g, din := d, cfg := c, base := b, bus := q, resp := r }

/-- A `BLOCK` of a run does not depend on `CFG`, `BASE` or `KEYSTG` as they stand then, and leaves them alone. -/
def Obligations.RunIgnoresLaterConfiguration : Prop :=
  ∀ (s t : State) (n : Nat) (c : BitVec 5) (b : Word) (g : Bytes 32),
    exec (.block n) s = .next t →
      exec (.block n) { s with cfg := c, base := b, keystg := g } = .next { t with cfg := c, base := b, keystg := g }

/-- The warnings decide nothing: with any other warnings the same command gives the same result, error code, run state,
output and counters. -/
def Obligations.WarningsNeverFailACommand : Prop :=
  ∀ (i : Instr) (s t : State) (a b : Bool) (c : BitVec 5), exec i s = .next t →
    ∃ (a' b' : Bool) (c' : BitVec 5),
      exec i { s with warnMask0 := a, warnPad := b, padLen := c }
        = .next { t with warnMask0 := a', warnPad := b', padLen := c' }

/-! ### The bit-range selector and the tweak-key deriver (40, 41), for every pattern table R11 allows -/

/-- The parameters obey their constraints: the two directions are inverse to each other. -/
def Obligations.CipherDirectionsInvert : Prop :=
  ∀ (p : Params) (k : Key) (x : Block),
    p.cipherD k (p.cipherE k x) = x ∧ p.cipherE k (p.cipherD k x) = x

/-- `EXPAND(m)` is the union of the four ranges its mask bits select, each index once. -/
def Obligations.ExpandSelectsRanges : Prop :=
  ∀ m : BitVec 4, (expand m).Nodup ∧ ∀ b : KeyBit,
    b ∈ expand m ↔ (m.getLsbD 0 = true ∧ b.val < 67) ∨ (m.getLsbD 1 = true ∧ 67 ≤ b.val ∧ b.val < 132)
      ∨ (m.getLsbD 2 = true ∧ 132 ≤ b.val ∧ b.val < 195) ∨ (m.getLsbD 3 = true ∧ 195 ≤ b.val ∧ b.val < 256)

/-- The size of `EXPAND(m)`, by formula and for the 16 masks in order. -/
def Obligations.ExpandSizes : Prop :=
  (∀ m : BitVec 4, (expand m).length
      = 67 * (m.getLsbD 0).toNat + 65 * (m.getLsbD 1).toNat + 63 * (m.getLsbD 2).toNat + 61 * (m.getLsbD 3).toNat)
    ∧ (List.range 16).map (fun m => (expand (BitVec.ofNat 4 m)).length)
        = [0, 67, 65, 132, 63, 130, 128, 195, 61, 128, 126, 193, 124, 191, 189, 256]

/-- `DERIVE(k, o, R) = k ^ TW(o, R)`, the bits of `TW` being those R112 gives it: the loop over the range is one
exclusive or. -/
def Obligations.DeriveIsXorWithTweak : Prop :=
  ∀ (p : Params) (k : Key) (o : Word) (R : TweakRange), R.Nodup →
    derive p k o R = xorKey k (tweak p o R)
      ∧ ∀ b : KeyBit, keyBit (tweak p o R) b = (decide (b ∈ R) && o.getLsbD (p.tweakPattern b))

/-- The derived key depends only on offset bits 5 to 23. -/
def Obligations.DeriveReadsBits5To23 : Prop :=
  ∀ (p : Params) (k : Key) (o : Word) (R : TweakRange),
    derive p k o R = derive p k (BitVec.ofNat 32 (o.toNat % 2 ^ 24)) R
      ∧ derive p k o R = derive p k (o &&& 0x00FFFFE0#32) R

/-- Offsets of one 32-byte region, or with the same region number modulo `2^19`, give the same key. -/
def Obligations.DeriveRegionInvariance : Prop :=
  ∀ (p : Params) (k : Key) (o₁ o₂ : Word) (R : TweakRange),
    (o₁.toNat / 32 = o₂.toNat / 32 → derive p k o₁ R = derive p k o₂ R)
    ∧ ((o₁ >>> 5).toNat % 2 ^ 19 = (o₂ >>> 5).toNat % 2 ^ 19 → derive p k o₁ R = derive p k o₂ R)
    ∧ derive p k (o₁ + 0x01000000#32) R = derive p k o₁ R

/-- Offsets 0 to 31, multiples of `2^24` and the empty range give the master key itself. -/
def Obligations.DeriveIsIdentityAt : Prop :=
  ∀ (p : Params) (k : Key) (o : Word) (R : TweakRange),
    (o.toNat < 32 → derive p k o R = k) ∧ (o.toNat % 2 ^ 24 = 0 → derive p k o R = k)
      ∧ derive p k o [] = k ∧ derive p k o (expand 0) = k

/-- The tweak is linear in the offset and in disjoint ranges; deriving twice adds the offsets, and deriving twice at one
offset gives the key back. -/
def Obligations.DeriveIsLinear : Prop :=
  ∀ (p : Params) (k : Key) (o₁ o₂ : Word) (R₁ R₂ : TweakRange),
    tweak p (o₁ ^^^ o₂) R₁ = xorKey (tweak p o₁ R₁) (tweak p o₂ R₁)
    ∧ ((∀ b ∈ R₁, b ∉ R₂) → tweak p o₁ (R₁ ++ R₂) = xorKey (tweak p o₁ R₁) (tweak p o₁ R₂))
    ∧ derive p (derive p k o₁ R₁) o₂ R₁ = derive p k (o₁ ^^^ o₂) R₁
    ∧ derive p (derive p k o₁ R₁) o₁ R₁ = k

/-- A single offset bit `j` flips exactly the key bits of the range whose table entry is `j`, and none for `j` outside
5..23. -/
def Obligations.DeriveSingleOffsetBit : Prop :=
  ∀ (p : Params) (k : Key) (R : TweakRange) (j : Nat), R.Nodup → j < 32 →
    (∀ b : KeyBit, keyBit (derive p k (BitVec.twoPow 32 j) R) b
        = (keyBit k b ^^ decide (b ∈ R ∧ p.tweakPattern b = j)))
    ∧ (j ≤ 4 ∨ 24 ≤ j → derive p k (BitVec.twoPow 32 j) R = k)

/-! ### The engine, the wrapper and whole runs (42_cipher_engine.md) -/

/-- Output byte `j` is cipher output byte `15 - j`, the cipher seeing the reversed block, in the direction opposite to
the one requested. -/
def Obligations.WrapByteView : Prop :=
  ∀ (p : Params) (key : Key) (x : Block) (j : Fin 16),
    (wrap p false key x)[j] = (p.cipherD key (rev x))[15 - j.val]
      ∧ (wrap p true key x)[j] = (p.cipherE key (rev x))[15 - j.val] ∧ (rev x)[j] = x[15 - j.val]

/-- The wrapper's two directions undo each other. -/
def Obligations.WrapRoundTrip : Prop :=
  ∀ (p : Params) (key : Key) (x : Block),
    wrap p true key (wrap p false key x) = x ∧ wrap p false key (wrap p true key x) = x

/-- At every data-carrying block the key used is `DERIVE(MKEY, o, RANGE)`, whatever the engine had cached. -/
def Obligations.KeyInUseIsDerivedAtOffset : Prop :=
  ∀ (s t : State) (n : Nat), Invariants s → s.runst = .active → 1 ≤ n → n ≤ 16 → exec (.block n) s = .next t → t.err = .ok →
    t.tkey = derive Config.params s.mkey s.offset s.range
      ∧ t.dout = wrap Config.params s.rdir (derive Config.params s.mkey s.offset s.range) s.din

/-- The re-keying of the first three blocks of a run: from a base of `0 mod 32` blocks 0 and 1 share a key and block 2
re-keys; from a base of `16 mod 32` block 1 re-keys and block 2 shares its key. -/
def Obligations.RekeyCadence : Prop :=
  ∀ (s t u v : State) (x y : Block), s.runst = .active → s.keyed = false →
    exec (.block 16) s = .next t → exec (.block 16) { t with din := x } = .next u →
    exec (.block 16) { u with din := y } = .next v →
      t.keyedAt = s.offset
      ∧ (s.offset.toNat % 32 = 0 → u.keyedAt = s.offset ∧ u.tkey = t.tkey ∧ v.keyedAt = s.offset + 32)
      ∧ (s.offset.toNat % 32 = 16 → u.keyedAt = s.offset + 16 ∧ v.keyedAt = s.offset + 16 ∧ v.tkey = u.tkey)

/-- The body of a run over full blocks completes in either direction: one output block for each input block, `BLKCNT` and
`OFFSET` advanced by what was consumed, the run still active. -/
def Obligations.TransformCompletes : Prop :=
  ∀ (xs : List Block) (s : State), s.runst = .active →
    ∃ (ys : List Block) (t : State), transformBlocks xs s = some (ys, t) ∧ ys.length = xs.length ∧ t.runst = .active
      ∧ t.blkcnt = s.blkcnt + BitVec.ofNat 32 xs.length
      ∧ t.offset = s.offset + BitVec.ofNat 32 (16 * xs.length)

/-- The engine's cache is not observable: output block `i` of a run is the wrapper under the key derived at block `i`'s
own offset, a function of the input block alone beside the run's parameters. The table and the cipher are the opaque
`Config.params` (log 1, log 2). -/
def Obligations.TransformIsPerBlock : Prop :=
  ∀ (xs ys : List Block) (s t : State), Invariants s → s.runst = .active → transformBlocks xs s = some (ys, t) →
    ys = xs.mapIdx fun i x =>
      wrap Config.params s.rdir
        (derive Config.params s.mkey (s.offset + BitVec.ofNat 32 (16 * i)) s.range) x

/-- Encrypting full blocks and decrypting the output, with the same key, base and mask, returns the original blocks. The
table and the cipher are the opaque `Config.params` (log 1, log 2). -/
def Obligations.EncryptThenDecryptRestores : Prop :=
  ∀ (xs ys : List Block) (e d e' : State), Invariants e → Invariants d → e.runst = .active → d.runst = .active →
    e.rdir = false → d.rdir = true → d.mkey = e.mkey → d.offset = e.offset → d.rmask = e.rmask →
    transformBlocks xs e = some (ys, e') → ∃ d' : State, transformBlocks ys d = some (xs, d')
end

