-- ==== Sys2Proof/Laws/State.lean ====
section
/-! SUPPORT. One lemma per field for each record update the commands are made of, true by unfolding. -/

namespace Sys2Proof.Machine

/-! `setErr` (10_state.md R35) -/

@[simp] theorem setErr_mkey (e : ErrCode) (s : State) : (setErr e s).mkey = s.mkey := rfl
@[simp] theorem setErr_keyValid (e : ErrCode) (s : State) : (setErr e s).keyValid = s.keyValid := rfl
@[simp] theorem setErr_keystg (e : ErrCode) (s : State) : (setErr e s).keystg = s.keystg := rfl
@[simp] theorem setErr_din (e : ErrCode) (s : State) : (setErr e s).din = s.din := rfl
@[simp] theorem setErr_dout (e : ErrCode) (s : State) : (setErr e s).dout = s.dout := rfl
@[simp] theorem setErr_err (e : ErrCode) (s : State) : (setErr e s).err = e := rfl
@[simp] theorem setErr_runst (e : ErrCode) (s : State) : (setErr e s).runst = s.runst := rfl
@[simp] theorem setErr_keyed (e : ErrCode) (s : State) : (setErr e s).keyed = s.keyed := rfl
@[simp] theorem setErr_aborted (e : ErrCode) (s : State) : (setErr e s).aborted = s.aborted := rfl
@[simp] theorem setErr_warnMask0 (e : ErrCode) (s : State) : (setErr e s).warnMask0 = s.warnMask0 := rfl
@[simp] theorem setErr_warnPad (e : ErrCode) (s : State) : (setErr e s).warnPad = s.warnPad := rfl
@[simp] theorem setErr_padLen (e : ErrCode) (s : State) : (setErr e s).padLen = s.padLen := rfl
@[simp] theorem setErr_keySize (e : ErrCode) (s : State) : (setErr e s).keySize = s.keySize := rfl
@[simp] theorem setErr_offset (e : ErrCode) (s : State) : (setErr e s).offset = s.offset := rfl
@[simp] theorem setErr_cfg (e : ErrCode) (s : State) : (setErr e s).cfg = s.cfg := rfl
@[simp] theorem setErr_base (e : ErrCode) (s : State) : (setErr e s).base = s.base := rfl
@[simp] theorem setErr_keyedAt (e : ErrCode) (s : State) : (setErr e s).keyedAt = s.keyedAt := rfl
@[simp] theorem setErr_blkcnt (e : ErrCode) (s : State) : (setErr e s).blkcnt = s.blkcnt := rfl
@[simp] theorem setErr_rmask (e : ErrCode) (s : State) : (setErr e s).rmask = s.rmask := rfl
@[simp] theorem setErr_rdir (e : ErrCode) (s : State) : (setErr e s).rdir = s.rdir := rfl
@[simp] theorem setErr_tkey (e : ErrCode) (s : State) : (setErr e s).tkey = s.tkey := rfl
@[simp] theorem setErr_bus (e : ErrCode) (s : State) : (setErr e s).bus = s.bus := rfl
@[simp] theorem setErr_resp (e : ErrCode) (s : State) : (setErr e s).resp = s.resp := rfl

/-! `answer` (20_memory.md R50) -/

@[simp] theorem answer_mkey (r : Response) (s : State) : (answer r s).mkey = s.mkey := rfl
@[simp] theorem answer_keyValid (r : Response) (s : State) : (answer r s).keyValid = s.keyValid := rfl
@[simp] theorem answer_keystg (r : Response) (s : State) : (answer r s).keystg = s.keystg := rfl
@[simp] theorem answer_din (r : Response) (s : State) : (answer r s).din = s.din := rfl
@[simp] theorem answer_dout (r : Response) (s : State) : (answer r s).dout = s.dout := rfl
@[simp] theorem answer_err (r : Response) (s : State) : (answer r s).err = s.err := rfl
@[simp] theorem answer_runst (r : Response) (s : State) : (answer r s).runst = s.runst := rfl
@[simp] theorem answer_keyed (r : Response) (s : State) : (answer r s).keyed = s.keyed := rfl
@[simp] theorem answer_aborted (r : Response) (s : State) : (answer r s).aborted = s.aborted := rfl
@[simp] theorem answer_warnMask0 (r : Response) (s : State) : (answer r s).warnMask0 = s.warnMask0 := rfl
@[simp] theorem answer_warnPad (r : Response) (s : State) : (answer r s).warnPad = s.warnPad := rfl
@[simp] theorem answer_padLen (r : Response) (s : State) : (answer r s).padLen = s.padLen := rfl
@[simp] theorem answer_keySize (r : Response) (s : State) : (answer r s).keySize = s.keySize := rfl
@[simp] theorem answer_offset (r : Response) (s : State) : (answer r s).offset = s.offset := rfl
@[simp] theorem answer_cfg (r : Response) (s : State) : (answer r s).cfg = s.cfg := rfl
@[simp] theorem answer_base (r : Response) (s : State) : (answer r s).base = s.base := rfl
@[simp] theorem answer_keyedAt (r : Response) (s : State) : (answer r s).keyedAt = s.keyedAt := rfl
@[simp] theorem answer_blkcnt (r : Response) (s : State) : (answer r s).blkcnt = s.blkcnt := rfl
@[simp] theorem answer_rmask (r : Response) (s : State) : (answer r s).rmask = s.rmask := rfl
@[simp] theorem answer_rdir (r : Response) (s : State) : (answer r s).rdir = s.rdir := rfl
@[simp] theorem answer_tkey (r : Response) (s : State) : (answer r s).tkey = s.tkey := rfl
@[simp] theorem answer_bus (r : Response) (s : State) : (answer r s).bus = s.bus := rfl
@[simp] theorem answer_resp (r : Response) (s : State) : (answer r s).resp = r := rfl

/-! `clearEngine` (42_cipher_engine.md R130) -/

@[simp] theorem clearEngine_mkey (s : State) : (clearEngine s).mkey = s.mkey := rfl
@[simp] theorem clearEngine_keyValid (s : State) : (clearEngine s).keyValid = s.keyValid := rfl
@[simp] theorem clearEngine_keystg (s : State) : (clearEngine s).keystg = s.keystg := rfl
@[simp] theorem clearEngine_din (s : State) : (clearEngine s).din = s.din := rfl
@[simp] theorem clearEngine_dout (s : State) : (clearEngine s).dout = s.dout := rfl
@[simp] theorem clearEngine_err (s : State) : (clearEngine s).err = s.err := rfl
@[simp] theorem clearEngine_runst (s : State) : (clearEngine s).runst = s.runst := rfl
@[simp] theorem clearEngine_keyed (s : State) : (clearEngine s).keyed = false := rfl
@[simp] theorem clearEngine_aborted (s : State) : (clearEngine s).aborted = s.aborted := rfl
@[simp] theorem clearEngine_warnMask0 (s : State) : (clearEngine s).warnMask0 = s.warnMask0 := rfl
@[simp] theorem clearEngine_warnPad (s : State) : (clearEngine s).warnPad = s.warnPad := rfl
@[simp] theorem clearEngine_padLen (s : State) : (clearEngine s).padLen = s.padLen := rfl
@[simp] theorem clearEngine_keySize (s : State) : (clearEngine s).keySize = s.keySize := rfl
@[simp] theorem clearEngine_offset (s : State) : (clearEngine s).offset = s.offset := rfl
@[simp] theorem clearEngine_cfg (s : State) : (clearEngine s).cfg = s.cfg := rfl
@[simp] theorem clearEngine_base (s : State) : (clearEngine s).base = s.base := rfl
@[simp] theorem clearEngine_keyedAt (s : State) : (clearEngine s).keyedAt = 0 := rfl
@[simp] theorem clearEngine_blkcnt (s : State) : (clearEngine s).blkcnt = s.blkcnt := rfl
@[simp] theorem clearEngine_rmask (s : State) : (clearEngine s).rmask = s.rmask := rfl
@[simp] theorem clearEngine_rdir (s : State) : (clearEngine s).rdir = s.rdir := rfl
@[simp] theorem clearEngine_tkey (s : State) : (clearEngine s).tkey = zeroBytes 32 := rfl
@[simp] theorem clearEngine_bus (s : State) : (clearEngine s).bus = s.bus := rfl
@[simp] theorem clearEngine_resp (s : State) : (clearEngine s).resp = s.resp := rfl

/-! `abortRun` (60_exceptions.md R184) -/

@[simp] theorem abortRun_mkey (s : State) : (abortRun s).mkey = s.mkey := rfl
@[simp] theorem abortRun_keyValid (s : State) : (abortRun s).keyValid = s.keyValid := rfl
@[simp] theorem abortRun_keystg (s : State) : (abortRun s).keystg = s.keystg := rfl
@[simp] theorem abortRun_din (s : State) : (abortRun s).din = s.din := rfl
@[simp] theorem abortRun_dout (s : State) : (abortRun s).dout = s.dout := rfl
@[simp] theorem abortRun_err (s : State) : (abortRun s).err = s.err := rfl
@[simp] theorem abortRun_runst (s : State) : (abortRun s).runst = .idle := rfl
@[simp] theorem abortRun_keyed (s : State) : (abortRun s).keyed = false := rfl
@[simp] theorem abortRun_aborted (s : State) : (abortRun s).aborted = true := rfl
@[simp] theorem abortRun_warnMask0 (s : State) : (abortRun s).warnMask0 = s.warnMask0 := rfl
@[simp] theorem abortRun_warnPad (s : State) : (abortRun s).warnPad = s.warnPad := rfl
@[simp] theorem abortRun_padLen (s : State) : (abortRun s).padLen = s.padLen := rfl
@[simp] theorem abortRun_keySize (s : State) : (abortRun s).keySize = s.keySize := rfl
@[simp] theorem abortRun_offset (s : State) : (abortRun s).offset = s.offset := rfl
@[simp] theorem abortRun_cfg (s : State) : (abortRun s).cfg = s.cfg := rfl
@[simp] theorem abortRun_base (s : State) : (abortRun s).base = s.base := rfl
@[simp] theorem abortRun_keyedAt (s : State) : (abortRun s).keyedAt = 0 := rfl
@[simp] theorem abortRun_blkcnt (s : State) : (abortRun s).blkcnt = s.blkcnt := rfl
@[simp] theorem abortRun_rmask (s : State) : (abortRun s).rmask = s.rmask := rfl
@[simp] theorem abortRun_rdir (s : State) : (abortRun s).rdir = s.rdir := rfl
@[simp] theorem abortRun_tkey (s : State) : (abortRun s).tkey = zeroBytes 32 := rfl
@[simp] theorem abortRun_bus (s : State) : (abortRun s).bus = s.bus := rfl
@[simp] theorem abortRun_resp (s : State) : (abortRun s).resp = s.resp := rfl

/-! `installKey` (43_commands.md R152) -/

@[simp] theorem installKey_mkey (k : Key) (z : KeySize) (s : State) : (installKey k z s).mkey = k := rfl
@[simp] theorem installKey_keyValid (k : Key) (z : KeySize) (s : State) : (installKey k z s).keyValid = true := rfl
@[simp] theorem installKey_keystg (k : Key) (z : KeySize) (s : State) : (installKey k z s).keystg = zeroBytes 32 := rfl
@[simp] theorem installKey_din (k : Key) (z : KeySize) (s : State) : (installKey k z s).din = s.din := rfl
@[simp] theorem installKey_dout (k : Key) (z : KeySize) (s : State) : (installKey k z s).dout = s.dout := rfl
@[simp] theorem installKey_err (k : Key) (z : KeySize) (s : State) : (installKey k z s).err = .ok := rfl
@[simp] theorem installKey_runst (k : Key) (z : KeySize) (s : State) : (installKey k z s).runst = s.runst := rfl
@[simp] theorem installKey_keyed (k : Key) (z : KeySize) (s : State) : (installKey k z s).keyed = s.keyed := rfl
@[simp] theorem installKey_aborted (k : Key) (z : KeySize) (s : State) : (installKey k z s).aborted = s.aborted := rfl
@[simp] theorem installKey_warnMask0 (k : Key) (z : KeySize) (s : State) : (installKey k z s).warnMask0 = s.warnMask0 := rfl
@[simp] theorem installKey_warnPad (k : Key) (z : KeySize) (s : State) : (installKey k z s).warnPad = s.warnPad := rfl
@[simp] theorem installKey_padLen (k : Key) (z : KeySize) (s : State) : (installKey k z s).padLen = s.padLen := rfl
@[simp] theorem installKey_keySize (k : Key) (z : KeySize) (s : State) : (installKey k z s).keySize = z := rfl
@[simp] theorem installKey_offset (k : Key) (z : KeySize) (s : State) : (installKey k z s).offset = s.offset := rfl
@[simp] theorem installKey_cfg (k : Key) (z : KeySize) (s : State) : (installKey k z s).cfg = s.cfg := rfl
@[simp] theorem installKey_base (k : Key) (z : KeySize) (s : State) : (installKey k z s).base = s.base := rfl
@[simp] theorem installKey_keyedAt (k : Key) (z : KeySize) (s : State) : (installKey k z s).keyedAt = s.keyedAt := rfl
@[simp] theorem installKey_blkcnt (k : Key) (z : KeySize) (s : State) : (installKey k z s).blkcnt = s.blkcnt := rfl
@[simp] theorem installKey_rmask (k : Key) (z : KeySize) (s : State) : (installKey k z s).rmask = s.rmask := rfl
@[simp] theorem installKey_rdir (k : Key) (z : KeySize) (s : State) : (installKey k z s).rdir = s.rdir := rfl
@[simp] theorem installKey_tkey (k : Key) (z : KeySize) (s : State) : (installKey k z s).tkey = s.tkey := rfl
@[simp] theorem installKey_bus (k : Key) (z : KeySize) (s : State) : (installKey k z s).bus = s.bus := rfl
@[simp] theorem installKey_resp (k : Key) (z : KeySize) (s : State) : (installKey k z s).resp = s.resp := rfl

/-! `beginRun` (43_commands.md R157) -/

@[simp] theorem beginRun_mkey (s : State) : (beginRun s).mkey = s.mkey := rfl
@[simp] theorem beginRun_keyValid (s : State) : (beginRun s).keyValid = s.keyValid := rfl
@[simp] theorem beginRun_keystg (s : State) : (beginRun s).keystg = s.keystg := rfl
@[simp] theorem beginRun_din (s : State) : (beginRun s).din = s.din := rfl
@[simp] theorem beginRun_dout (s : State) : (beginRun s).dout = s.dout := rfl
@[simp] theorem beginRun_err (s : State) : (beginRun s).err = .ok := rfl
@[simp] theorem beginRun_runst (s : State) : (beginRun s).runst = .active := rfl
@[simp] theorem beginRun_keyed (s : State) : (beginRun s).keyed = false := rfl
@[simp] theorem beginRun_aborted (s : State) : (beginRun s).aborted = false := rfl
@[simp] theorem beginRun_warnMask0 (s : State) : (beginRun s).warnMask0 = decide (s.cfgMask = 0) := rfl
@[simp] theorem beginRun_warnPad (s : State) : (beginRun s).warnPad = false := rfl
@[simp] theorem beginRun_padLen (s : State) : (beginRun s).padLen = 0 := rfl
@[simp] theorem beginRun_keySize (s : State) : (beginRun s).keySize = s.keySize := rfl
@[simp] theorem beginRun_offset (s : State) : (beginRun s).offset = s.base := rfl
@[simp] theorem beginRun_cfg (s : State) : (beginRun s).cfg = s.cfg := rfl
@[simp] theorem beginRun_base (s : State) : (beginRun s).base = s.base := rfl
@[simp] theorem beginRun_keyedAt (s : State) : (beginRun s).keyedAt = 0 := rfl
@[simp] theorem beginRun_blkcnt (s : State) : (beginRun s).blkcnt = 0 := rfl
@[simp] theorem beginRun_rmask (s : State) : (beginRun s).rmask = s.cfgMask := rfl
@[simp] theorem beginRun_rdir (s : State) : (beginRun s).rdir = s.cfgDir := rfl
@[simp] theorem beginRun_tkey (s : State) : (beginRun s).tkey = zeroBytes 32 := rfl
@[simp] theorem beginRun_bus (s : State) : (beginRun s).bus = s.bus := rfl
@[simp] theorem beginRun_resp (s : State) : (beginRun s).resp = s.resp := rfl

/-! `endRun` (43_commands.md R162) -/

@[simp] theorem endRun_mkey (s : State) : (endRun s).mkey = s.mkey := rfl
@[simp] theorem endRun_keyValid (s : State) : (endRun s).keyValid = s.keyValid := rfl
@[simp] theorem endRun_keystg (s : State) : (endRun s).keystg = s.keystg := rfl
@[simp] theorem endRun_din (s : State) : (endRun s).din = s.din := rfl
@[simp] theorem endRun_dout (s : State) : (endRun s).dout = s.dout := rfl
@[simp] theorem endRun_err (s : State) : (endRun s).err = .ok := rfl
@[simp] theorem endRun_runst (s : State) : (endRun s).runst = .done := rfl
@[simp] theorem endRun_keyed (s : State) : (endRun s).keyed = false := rfl
@[simp] theorem endRun_aborted (s : State) : (endRun s).aborted = s.aborted := rfl
@[simp] theorem endRun_warnMask0 (s : State) : (endRun s).warnMask0 = s.warnMask0 := rfl
@[simp] theorem endRun_warnPad (s : State) : (endRun s).warnPad = s.warnPad := rfl
@[simp] theorem endRun_padLen (s : State) : (endRun s).padLen = s.padLen := rfl
@[simp] theorem endRun_keySize (s : State) : (endRun s).keySize = s.keySize := rfl
@[simp] theorem endRun_offset (s : State) : (endRun s).offset = s.offset := rfl
@[simp] theorem endRun_cfg (s : State) : (endRun s).cfg = s.cfg := rfl
@[simp] theorem endRun_base (s : State) : (endRun s).base = s.base := rfl
@[simp] theorem endRun_keyedAt (s : State) : (endRun s).keyedAt = 0 := rfl
@[simp] theorem endRun_blkcnt (s : State) : (endRun s).blkcnt = s.blkcnt := rfl
@[simp] theorem endRun_rmask (s : State) : (endRun s).rmask = s.rmask := rfl
@[simp] theorem endRun_rdir (s : State) : (endRun s).rdir = s.rdir := rfl
@[simp] theorem endRun_tkey (s : State) : (endRun s).tkey = zeroBytes 32 := rfl
@[simp] theorem endRun_bus (s : State) : (endRun s).bus = s.bus := rfl
@[simp] theorem endRun_resp (s : State) : (endRun s).resp = s.resp := rfl

/-! `notePad` (43_commands.md R161) -/

@[simp] theorem notePad_mkey (n : Nat) (s : State) : (notePad n s).mkey = s.mkey := rfl
@[simp] theorem notePad_keyValid (n : Nat) (s : State) : (notePad n s).keyValid = s.keyValid := rfl
@[simp] theorem notePad_keystg (n : Nat) (s : State) : (notePad n s).keystg = s.keystg := rfl
@[simp] theorem notePad_din (n : Nat) (s : State) : (notePad n s).din = s.din := rfl
@[simp] theorem notePad_dout (n : Nat) (s : State) : (notePad n s).dout = s.dout := rfl
@[simp] theorem notePad_err (n : Nat) (s : State) : (notePad n s).err = s.err := rfl
@[simp] theorem notePad_runst (n : Nat) (s : State) : (notePad n s).runst = .final := rfl
@[simp] theorem notePad_keyed (n : Nat) (s : State) : (notePad n s).keyed = s.keyed := rfl
@[simp] theorem notePad_aborted (n : Nat) (s : State) : (notePad n s).aborted = s.aborted := rfl
@[simp] theorem notePad_warnMask0 (n : Nat) (s : State) : (notePad n s).warnMask0 = s.warnMask0 := rfl
@[simp] theorem notePad_warnPad (n : Nat) (s : State) : (notePad n s).warnPad = true := rfl
@[simp] theorem notePad_padLen (n : Nat) (s : State) : (notePad n s).padLen = padLength n := rfl
@[simp] theorem notePad_keySize (n : Nat) (s : State) : (notePad n s).keySize = s.keySize := rfl
@[simp] theorem notePad_offset (n : Nat) (s : State) : (notePad n s).offset = s.offset := rfl
@[simp] theorem notePad_cfg (n : Nat) (s : State) : (notePad n s).cfg = s.cfg := rfl
@[simp] theorem notePad_base (n : Nat) (s : State) : (notePad n s).base = s.base := rfl
@[simp] theorem notePad_keyedAt (n : Nat) (s : State) : (notePad n s).keyedAt = s.keyedAt := rfl
@[simp] theorem notePad_blkcnt (n : Nat) (s : State) : (notePad n s).blkcnt = s.blkcnt := rfl
@[simp] theorem notePad_rmask (n : Nat) (s : State) : (notePad n s).rmask = s.rmask := rfl
@[simp] theorem notePad_rdir (n : Nat) (s : State) : (notePad n s).rdir = s.rdir := rfl
@[simp] theorem notePad_tkey (n : Nat) (s : State) : (notePad n s).tkey = s.tkey := rfl
@[simp] theorem notePad_bus (n : Nat) (s : State) : (notePad n s).bus = s.bus := rfl
@[simp] theorem notePad_resp (n : Nat) (s : State) : (notePad n s).resp = s.resp := rfl

/-! `emitBlock` (43_commands.md R160) -/

@[simp] theorem emitBlock_mkey (p : Params) (n : Nat) (s : State) : (emitBlock p n s).mkey = s.mkey := rfl
@[simp] theorem emitBlock_keyValid (p : Params) (n : Nat) (s : State) : (emitBlock p n s).keyValid = s.keyValid := rfl
@[simp] theorem emitBlock_keystg (p : Params) (n : Nat) (s : State) : (emitBlock p n s).keystg = s.keystg := rfl
@[simp] theorem emitBlock_din (p : Params) (n : Nat) (s : State) : (emitBlock p n s).din = s.din := rfl
@[simp] theorem emitBlock_dout (p : Params) (n : Nat) (s : State) : (emitBlock p n s).dout = wrap p s.rdir s.tkey s.din := rfl
@[simp] theorem emitBlock_err (p : Params) (n : Nat) (s : State) : (emitBlock p n s).err = .ok := rfl
@[simp] theorem emitBlock_runst (p : Params) (n : Nat) (s : State) : (emitBlock p n s).runst = s.runst := rfl
@[simp] theorem emitBlock_keyed (p : Params) (n : Nat) (s : State) : (emitBlock p n s).keyed = s.keyed := rfl
@[simp] theorem emitBlock_aborted (p : Params) (n : Nat) (s : State) : (emitBlock p n s).aborted = s.aborted := rfl
@[simp] theorem emitBlock_warnMask0 (p : Params) (n : Nat) (s : State) : (emitBlock p n s).warnMask0 = s.warnMask0 := rfl
@[simp] theorem emitBlock_warnPad (p : Params) (n : Nat) (s : State) : (emitBlock p n s).warnPad = s.warnPad := rfl
@[simp] theorem emitBlock_padLen (p : Params) (n : Nat) (s : State) : (emitBlock p n s).padLen = s.padLen := rfl
@[simp] theorem emitBlock_keySize (p : Params) (n : Nat) (s : State) : (emitBlock p n s).keySize = s.keySize := rfl
@[simp] theorem emitBlock_offset (p : Params) (n : Nat) (s : State) : (emitBlock p n s).offset = s.offset + BitVec.ofNat 32 n := rfl
@[simp] theorem emitBlock_cfg (p : Params) (n : Nat) (s : State) : (emitBlock p n s).cfg = s.cfg := rfl
@[simp] theorem emitBlock_base (p : Params) (n : Nat) (s : State) : (emitBlock p n s).base = s.base := rfl
@[simp] theorem emitBlock_keyedAt (p : Params) (n : Nat) (s : State) : (emitBlock p n s).keyedAt = s.keyedAt := rfl
@[simp] theorem emitBlock_blkcnt (p : Params) (n : Nat) (s : State) : (emitBlock p n s).blkcnt = s.blkcnt + 1 := rfl
@[simp] theorem emitBlock_rmask (p : Params) (n : Nat) (s : State) : (emitBlock p n s).rmask = s.rmask := rfl
@[simp] theorem emitBlock_rdir (p : Params) (n : Nat) (s : State) : (emitBlock p n s).rdir = s.rdir := rfl
@[simp] theorem emitBlock_tkey (p : Params) (n : Nat) (s : State) : (emitBlock p n s).tkey = s.tkey := rfl
@[simp] theorem emitBlock_bus (p : Params) (n : Nat) (s : State) : (emitBlock p n s).bus = s.bus := rfl
@[simp] theorem emitBlock_resp (p : Params) (n : Nat) (s : State) : (emitBlock p n s).resp = s.resp := rfl

end Sys2Proof.Machine
end

