-- ==== Sys2Proof/Laws/Ops.lean ====
section
/-! SUPPORT. What each shared operation of the commands can do, said once. -/

namespace Sys2Proof.Machine

theorem runActive_iff (s : State) : s.runActive = true ↔ s.runst = .active ∨ s.runst = .final := by
  unfold State.runActive; cases s.runst <;> simp

theorem runActive_eq_false_iff (s : State) : s.runActive = false ↔ s.runst = .idle ∨ s.runst = .done := by
  unfold State.runActive; cases s.runst <;> simp

@[simp] theorem runActive_setErr (e : ErrCode) (s : State) : (setErr e s).runActive = s.runActive := rfl

/-- With no run active, an error writes only its code (60_exceptions.md R184). -/
theorem fail_of_inactive {e : ErrCode} {s : State} (h : s.runActive = false) : fail e s = setErr e s := by
  simp [fail, h]

/-- With a run active, an error aborts it (60_exceptions.md R184). -/
theorem fail_of_active {e : ErrCode} {s : State} (h : s.runActive = true) : fail e s = abortRun (setErr e s) := by
  simp [fail, h]

/-- Everything `FAIL` can do. -/
theorem fail_cases (e : ErrCode) (s : State) :
    (s.runActive = true ∧ fail e s = abortRun (setErr e s)) ∨ (s.runActive = false ∧ fail e s = setErr e s) := by
  cases h : s.runActive
  · exact .inr ⟨rfl, fail_of_inactive h⟩
  · exact .inl ⟨rfl, fail_of_active h⟩

@[simp] theorem fail_err (e : ErrCode) (s : State) : (fail e s).err = e := by
  obtain ⟨-, h⟩ | ⟨-, h⟩ := fail_cases e s <;> simp [h]

@[simp] theorem fail_bus (e : ErrCode) (s : State) : (fail e s).bus = s.bus := by
  obtain ⟨-, h⟩ | ⟨-, h⟩ := fail_cases e s <;> simp [h]

@[simp] theorem fail_resp (e : ErrCode) (s : State) : (fail e s).resp = s.resp := by
  obtain ⟨-, h⟩ | ⟨-, h⟩ := fail_cases e s <;> simp [h]

/-- Everything a checked command can do: it always answers a next state. -/
theorem runChecked_cases {c : Option ErrCode} {f : State → State} {s t : State} (h : runChecked c f s = .next t) :
    (∃ e, c = some e ∧ t = fail e s) ∨ (c = none ∧ t = f s) := by
  cases c with
  | none => exact .inr ⟨rfl, by simpa [runChecked] using h.symm⟩
  | some e => exact .inl ⟨e, rfl, by simpa [runChecked] using h.symm⟩

theorem runChecked_some (e : ErrCode) (f : State → State) (s : State) :
    runChecked (some e) f s = .next (fail e s) := rfl

theorem runChecked_none (f : State → State) (s : State) : runChecked none f s = .next (f s) := rfl

/-- Everything `ENGINE_KEY` can do (42_cipher_engine.md R131). -/
theorem engineKey_cases (p : Params) (o : Word) (s : State) :
    (s.mustRekey o = true ∧
        engineKey p o s = { s with tkey := derive p s.mkey o s.range, keyedAt := o, keyed := true })
      ∨ (s.mustRekey o = false ∧ engineKey p o s = s) := by
  cases h : s.mustRekey o <;> simp [engineKey, h]

theorem mustRekey_iff (s : State) (o : Word) : s.mustRekey o = true ↔ s.keyed = false ∨ o.toNat % 32 = 0 := by
  simp [State.mustRekey]

/-- A full block notes no pad. -/
theorem blockData_full {p : Params} {n : Nat} {s : State} (h : ¬n < 16) :
    blockData p n s = emitBlock p n (engineKey p s.offset s) := by
  simp [blockData, h]

/-- A short block notes its pad. -/
theorem blockData_short {p : Params} {n : Nat} {s : State} (h : n < 16) :
    blockData p n s = notePad n (emitBlock p n (engineKey p s.offset s)) := by
  simp [blockData, h]

end Sys2Proof.Machine
end

