-- ==== Sys2Proof/Laws/Commands.lean ====
section
/-! SUPPORT. Everything each command can do when it answers a next state. -/

namespace Sys2Proof.Machine

theorem exec_nop (n : Nat) (s : State) : exec (.nop n) s = runChecked (nopCheck n) (setErr .ok) s := rfl

theorem exec_loadKey (n : Nat) (s : State) :
    exec (.loadKey n) s = runChecked (loadKeyCheck n s) (loadKeyEffect n) s := rfl

theorem exec_start (n : Nat) (s : State) : exec (.start n) s = runChecked (startCheck n s) beginRun s := rfl

theorem exec_block (n : Nat) (s : State) :
    exec (.block n) s = runChecked (blockCheck n s) (blockEffect Config.params n) s := rfl

theorem nopCheck_eq_none {n : Nat} : nopCheck n = none ↔ n = 0 := by
  unfold nopCheck; split <;> simp_all

theorem loadKeyCheck_eq_none {n : Nat} {s : State} :
    loadKeyCheck n s = none ↔ s.runActive = false ∧ (n = 24 ∨ n = 32) := by
  unfold loadKeyCheck
  grind

theorem startCheck_eq_none {n : Nat} {s : State} :
    startCheck n s = none ↔ n = 0 ∧ s.base.toNat % 16 = 0 ∧ s.keyValid = true := by
  unfold startCheck State.baseAligned; repeat' split
  all_goals simp_all

theorem blockCheck_eq_none {n : Nat} {s : State} :
    blockCheck n s = none ↔
      n ≤ 16 ∧ (s.runst = .active ∨ (s.runst = .final ∧ n = 0)) ∧ (1 ≤ n → n ≤ 15 → s.rdir = false) := by
  unfold blockCheck
  grind

/-- A check never reports success. -/
theorem nopCheck_ne_ok (n : Nat) : nopCheck n ≠ some .ok := by
  unfold nopCheck; split <;> simp

theorem loadKeyCheck_ne_ok (n : Nat) (s : State) : loadKeyCheck n s ≠ some .ok := by
  unfold loadKeyCheck; repeat' split
  all_goals simp

theorem startCheck_ne_ok (n : Nat) (s : State) : startCheck n s ≠ some .ok := by
  unfold startCheck; repeat' split
  all_goals simp

theorem blockCheck_ne_ok (n : Nat) (s : State) : blockCheck n s ≠ some .ok := by
  unfold blockCheck; repeat' split
  all_goals simp

/-- Everything a command can do: fail with a code, or one of the five effects. -/
theorem exec_cases {i : Instr} {s t : State} (h : exec i s = .next t) :
    (∃ e, e ≠ .ok ∧ t = fail e s)
      ∨ (i = .nop 0 ∧ t = setErr .ok s)
      ∨ (∃ n, i = .loadKey n ∧ (n = 24 ∨ n = 32) ∧ s.runActive = false ∧ t = loadKeyEffect n s)
      ∨ (i = .start 0 ∧ s.base.toNat % 16 = 0 ∧ s.keyValid = true ∧ t = beginRun s)
      ∨ (i = .block 0 ∧ s.runActive = true ∧ t = endRun s)
      ∨ (∃ n, i = .block n ∧ 1 ≤ n ∧ n ≤ 16 ∧ s.runst = .active ∧ (n = 16 ∨ s.rdir = false)
          ∧ t = blockData Config.params n s) := by
  cases i with
  | nop n =>
    rw [exec_nop] at h
    obtain ⟨e, hc, ht⟩ | ⟨hc, ht⟩ := runChecked_cases h
    · exact .inl ⟨e, fun he => nopCheck_ne_ok n (he ▸ hc), ht⟩
    · rw [nopCheck_eq_none] at hc; subst hc; exact .inr (.inl ⟨rfl, ht⟩)
  | loadKey n =>
    rw [exec_loadKey] at h
    obtain ⟨e, hc, ht⟩ | ⟨hc, ht⟩ := runChecked_cases h
    · exact .inl ⟨e, fun he => loadKeyCheck_ne_ok n s (he ▸ hc), ht⟩
    · obtain ⟨ha, hn⟩ := loadKeyCheck_eq_none.mp hc
      exact .inr (.inr (.inl ⟨n, rfl, hn, ha, ht⟩))
  | start n =>
    rw [exec_start] at h
    obtain ⟨e, hc, ht⟩ | ⟨hc, ht⟩ := runChecked_cases h
    · exact .inl ⟨e, fun he => startCheck_ne_ok n s (he ▸ hc), ht⟩
    · obtain ⟨hn, hb, hk⟩ := startCheck_eq_none.mp hc
      subst hn; exact .inr (.inr (.inr (.inl ⟨rfl, hb, hk, ht⟩)))
  | block n =>
    rw [exec_block] at h
    obtain ⟨e, hc, ht⟩ | ⟨hc, ht⟩ := runChecked_cases h
    · exact .inl ⟨e, fun he => blockCheck_ne_ok n s (he ▸ hc), ht⟩
    · obtain ⟨hn, hr, hd⟩ := blockCheck_eq_none.mp hc
      by_cases h0 : n = 0
      · subst h0
        refine .inr (.inr (.inr (.inr (.inl ⟨rfl, ?_, by simpa [blockEffect] using ht⟩))))
        rw [runActive_iff]; exact hr.imp id And.left
      · refine .inr (.inr (.inr (.inr (.inr ⟨n, rfl, by omega, hn, ?_, ?_, by simpa [blockEffect, h0] using ht⟩))))
        · exact hr.resolve_right fun h => h0 h.2
        · by_cases h16 : n = 16
          · exact .inl h16
          · exact .inr (hd (by omega) (by omega))

/-- No command moves the host's queue or answers the host. -/
theorem exec_keeps_host_side {i : Instr} {s t : State} (h : exec i s = .next t) : t.bus = s.bus ∧ t.resp = s.resp := by
  obtain ⟨e, -, rfl⟩ | ⟨-, rfl⟩ | ⟨n, -, -, -, rfl⟩ | ⟨-, -, -, rfl⟩ | ⟨-, -, rfl⟩ | ⟨n, -, -, -, -, -, rfl⟩ := exec_cases h
  · simp
  · simp
  · unfold loadKeyEffect; split <;> simp
  · simp
  · simp
  · obtain ⟨-, h⟩ | ⟨-, h⟩ := engineKey_cases Config.params s.offset s <;> unfold blockData <;> split <;> simp [h]

end Sys2Proof.Machine
end

