-- ==== Sys2Proof/Laws/Bus.lean ====
section
/-! SUPPORT. Everything a write to the window and a step can do. -/

namespace Sys2Proof.Machine

/-- A byte write touches at most the staging buffer and `DIN` (20_memory.md R58). -/
theorem writeByte_frame (o : Nat) (b : Byte) (s : State) :
    ∃ g d, writeByte o b s = { s with keystg := g, din := d } := by
  unfold writeByte; repeat' split
  · exact ⟨_, s.din, rfl⟩
  · exact ⟨s.keystg, _, rfl⟩
  · exact ⟨s.keystg, s.din, rfl⟩

theorem writeBytes_frame (off : Nat) (v : Word) (js : List Nat) (s : State) :
    ∃ g d, js.foldl (fun t j => writeByte (off + j) (byteOf v j) t) s = { s with keystg := g, din := d } := by
  induction js generalizing s with
  | nil => exact ⟨s.keystg, s.din, rfl⟩
  | cons j js ih =>
    obtain ⟨g, d, h⟩ := writeByte_frame (off + j) (byteOf v j) s
    obtain ⟨g', d', h'⟩ := ih (writeByte (off + j) (byteOf v j) s)
    exact ⟨g', d', by rw [List.foldl_cons, h', h]⟩

/-- A write other than to `CMD` touches at most the four writable registers (20_memory.md R58). -/
theorem writeWindow_frame (off width : Nat) (v : Word) (s : State) :
    ∃ g d c b, writeWindow off width v s = { s with keystg := g, din := d, cfg := c, base := b } := by
  unfold writeWindow writeControl
  split
  · repeat' split
    · exact ⟨s.keystg, s.din, _, s.base, rfl⟩
    · exact ⟨s.keystg, s.din, s.cfg, _, rfl⟩
    · exact ⟨s.keystg, s.din, s.cfg, s.base, rfl⟩
  · obtain ⟨g, d, h⟩ := writeBytes_frame off v (List.range width) s
    exact ⟨g, d, s.cfg, s.base, h⟩

theorem serveRead_legal {off width : Nat} (s : State) (h : LegalAccess off width) :
    serveRead off width s = .next (answer (.data (readWindow s off width)) s) := if_pos h

theorem serveRead_illegal {off width : Nat} (s : State) (h : ¬LegalAccess off width) :
    serveRead off width s = .next (answer (.fault .busError) s) := if_neg h

theorem serveWrite_illegal {off width : Nat} (v : Word) (s : State) (h : ¬LegalAccess off width) :
    serveWrite off width v s = .next (answer (.fault .busError) s) := if_neg h

theorem serveWrite_command (w : Word) (s : State) : serveWrite 0x00 4 w s = runCommand w (answer .written s) := by
  rw [serveWrite, if_pos (by decide), if_pos rfl]

theorem serveWrite_store {off width : Nat} (v : Word) (s : State) (h : LegalAccess off width) (h0 : off ≠ 0) :
    serveWrite off width v s = .next (writeWindow off width v (answer .written s)) := by
  rw [serveWrite, if_pos h, if_neg h0]

/-- A step on an empty queue changes nothing. -/
theorem step_nil {s : State} (h : s.bus = []) : step s = .next s := by
  simp [step, serveNext, h]

/-- A step takes the oldest waiting move. -/
theorem step_cons {s : State} {m : HostMove} {rest : List HostMove} (h : s.bus = m :: rest) :
    step s = serve m { s with bus := rest } := by
  simp [step, serveNext, h]

/-- Every command word answers a next state: a command's own, or `FAIL`. -/
theorem runCommand_cases {w : Word} {s t : State} (h : runCommand w s = .next t) :
    (∃ i, decode w = .ok i ∧ exec i s = .next t)
      ∨ (∃ r, decode w = .error r ∧ t = fail .reservedCommand s) := by
  unfold runCommand at h
  split at h
  · exact .inl ⟨_, ‹_›, h⟩
  · exact .inr ⟨_, ‹_›, by simpa using h.symm⟩

/-- Everything a step can do: nothing on an empty queue; reset; an access that is no command write, which touches at most
the four writable registers and the host's side; a command write. -/
theorem step_cases {s t : State} (h : step s = .next t) :
    (s.bus = [] ∧ t = s)
      ∨ (∃ rest, s.bus = .reset :: rest ∧ t = { State.reset with bus := rest })
      ∨ (∃ m rest r g d c b, s.bus = m :: rest ∧ m ≠ .reset ∧ (∀ w, m ≠ .write 0x00 4 w)
          ∧ t = { s with bus := rest, resp := r, keystg := g, din := d, cfg := c, base := b })
      ∨ (∃ w rest, s.bus = .write 0x00 4 w :: rest
          ∧ runCommand w { s with bus := rest, resp := .written } = .next t) := by
  cases hb : s.bus with
  | nil => rw [step_nil hb] at h; exact .inl ⟨rfl, (Host.Outcome.next.inj h).symm⟩
  | cons m rest =>
    rw [step_cons hb] at h
    right
    cases m with
    | reset => exact .inl ⟨rest, rfl, (Host.Outcome.next.inj h).symm⟩
    | read off width =>
      refine .inr (.inl ?_)
      simp only [serve, serveRead] at h
      split at h
      all_goals
        exact ⟨_, rest, _, s.keystg, s.din, s.cfg, s.base, rfl, by simp, by simp, (Host.Outcome.next.inj h).symm⟩
    | write off width v =>
      simp only [serve, serveWrite] at h
      split at h
      · rename_i hl
        split at h
        · rename_i h0
          obtain rfl : width = 4 := hl.2.2.2 (by omega)
          subst h0
          exact .inr (.inr ⟨v, rest, rfl, h⟩)
        · rename_i h0
          obtain ⟨g, d, c, b, hf⟩ := writeWindow_frame off width v (answer .written { s with bus := rest })
          rw [hf] at h
          exact .inr (.inl ⟨_, rest, .written, g, d, c, b, rfl, by simp, by simp [h0], (Host.Outcome.next.inj h).symm⟩)
      · rename_i hl
        refine .inr (.inl ⟨_, rest, .fault .busError, s.keystg, s.din, s.cfg, s.base, rfl, by simp, ?_,
          (Host.Outcome.next.inj h).symm⟩)
        rintro w hw
        obtain ⟨rfl, rfl, rfl⟩ := HostMove.write.inj hw
        exact hl (by decide)

end Sys2Proof.Machine
end

