-- ==== Sys2Proof/Laws/PerInstr.lean ====
section
/-! SUPPORT. Statements about every command as syntax, one lemma per constructor. -/

namespace Sys2Proof.Laws.ReservedBitsClear

/-- The word of a well-formed command has its reserved bits zero and its opcode in `OP` (30_encoding.md R80, R81). -/
def Statement (i : Instr) : Prop :=
  i.wellFormed = true → rsv0Field (encode i) = 0 ∧ rsv1Field (encode i) = 0 ∧ (opField (encode i)).toNat = i.opcode

theorem nop (n : Nat) : Statement (.nop n) := by
  intro h
  simp only [Instr.wellFormed, argFits, decide_eq_true_eq] at h
  interval_cases n <;> decide

theorem loadKey (n : Nat) : Statement (.loadKey n) := by
  intro h
  simp only [Instr.wellFormed, argFits, decide_eq_true_eq] at h
  interval_cases n <;> decide

theorem start (n : Nat) : Statement (.start n) := by
  intro h
  simp only [Instr.wellFormed, argFits, decide_eq_true_eq] at h
  interval_cases n <;> decide

theorem block (n : Nat) : Statement (.block n) := by
  intro h
  simp only [Instr.wellFormed, argFits, decide_eq_true_eq] at h
  interval_cases n <;> decide

end Sys2Proof.Laws.ReservedBitsClear
end

