-- ==== Sys2Proof/Laws/Step.lean ====
section
/-! SUPPORT. The induction over a run, packaged once. -/

namespace Sys2Proof.Machine

/-- What every step keeps, every run keeps. -/
theorem run_keeps (M : Host.Core) (P : M.State → Prop) (hstep : ∀ s t, P s → M.step s = .next t → P t)
    (k : Nat) (s t : M.State) (hs : P s) (hrun : M.run k s = .next t) : P t := by
  induction k generalizing s with
  | zero => exact Host.Outcome.next.inj hrun ▸ hs
  | succ k ih =>
    rw [Host.Core.run] at hrun
    split at hrun
    · exact ih _ (hstep _ _ hs ‹_›) hrun
    · cases hrun
    · cases hrun

end Sys2Proof.Machine
end

