-- ==== Sys2Proof/Laws/Tweak.lean ====
section
/-! SUPPORT. Keys as 256 bits: what one flip and one exclusive or do to each bit, and the steps of `DERIVE`. -/

namespace Sys2Proof.Machine

theorem keyBitMask_mod (b : Nat) : keyBitMask b = keyBitMask (b % 8) := by
  simp [keyBitMask]

/-- The mask of key bit `b` has exactly bit `7 - b` set (00_scope.md R13). -/
theorem keyBitMask_getLsbD {b i : Nat} (hb : b < 8) (hi : i < 8) :
    (keyBitMask b).getLsbD i = decide (i = 7 - b) := by
  interval_cases b <;> interval_cases i <;> rfl

/-- Two keys with the same key bits are equal. -/
theorem key_ext_keyBit {a b : Key} (h : ∀ i, keyBit a i = keyBit b i) : a = b := by
  ext i hi j hj
  have hij := h ⟨8 * i + (7 - j), by omega⟩
  have hbyte : (8 * i + (7 - j)) / 8 = i := by omega
  have hbit : 7 - (8 * i + (7 - j)) % 8 = j := by omega
  simp only [keyBit, hbyte, hbit] at hij
  rwa [BitVec.getLsbD_eq_getElem hj, BitVec.getLsbD_eq_getElem hj] at hij

/-- A flip changes its own key bit and no other. -/
theorem keyBit_flipKeyBit (k : Key) (b c : KeyBit) :
    keyBit (flipKeyBit k b) c = (keyBit k c ^^ decide (c = b)) := by
  unfold keyBit flipKeyBit
  have hb := b.isLt
  have hc := c.isLt
  rw [Vector.getElem_set]
  split
  · rename_i hbyte
    rw [BitVec.getLsbD_xor, keyBitMask_mod, keyBitMask_getLsbD (by omega) (by omega)]
    have hiff : (7 - c.val % 8 = 7 - b.val % 8) ↔ c = b := by rw [Fin.ext_iff]; omega
    simp [hbyte, hiff]
  · rename_i hbyte
    have hne : c ≠ b := by rintro rfl; exact hbyte rfl
    simp [hne]

@[simp] theorem keyBit_xorKey (a b : Key) (c : KeyBit) : keyBit (xorKey a b) c = (keyBit a c ^^ keyBit b c) := by
  simp [keyBit, xorKey]

/-- The offset flag that gates key bit `b` is the offset's bit at its table entry, which lies in 5..23. -/
theorem offsetFlag_tweakPattern (p : Params) (o : Word) (b : KeyBit) :
    offsetFlag o (p.tweakPattern b) = o.getLsbD (p.tweakPattern b) := by
  have h : p.tweakPattern b < 24 := by
    have := (p.table b).isLt
    unfold Params.tweakPattern
    omega
  simp [offsetFlag, h]

theorem tweakPattern_bounds (p : Params) (b : KeyBit) : 5 ≤ p.tweakPattern b ∧ p.tweakPattern b ≤ 23 := by
  have := (p.table b).isLt
  unfold Params.tweakPattern
  omega

theorem derive_nil (p : Params) (k : Key) (o : Word) : derive p k o [] = k := by
  unfold derive; rfl

theorem derive_cons (p : Params) (k : Key) (o : Word) (b : KeyBit) (R : TweakRange) :
    derive p k o (b :: R) = derive p (if o.getLsbD (p.tweakPattern b) then flipKeyBit k b else k) o R := by
  unfold derive
  rw [List.foldl_cons, offsetFlag_tweakPattern]

theorem rev_getElem (x : Block) (j : Nat) (h : j < 16) : (rev x)[j] = x[15 - j] := by
  simp [rev]

@[simp] theorem rev_rev (x : Block) : rev (rev x) = x := by
  ext1 j hj
  rw [rev_getElem _ _ hj, rev_getElem _ _ (by omega)]
  congr 1
  omega

theorem wrap_eq (p : Params) (dir : Bool) (key : Key) (x : Block) :
    wrap p dir key x = rev (if dir then p.cipherE key (rev x) else p.cipherD key (rev x)) := by
  unfold wrap; rfl

/-- Everything `ENGINE_KEY` leaves alone (42_cipher_engine.md R131). -/
theorem engineKey_frame (p : Params) (o : Word) (s : State) :
    ∃ k a v, engineKey p o s = { s with tkey := k, keyedAt := a, keyed := v } := by
  unfold engineKey
  split
  · exact ⟨_, _, _, rfl⟩
  · exact ⟨s.tkey, s.keyedAt, s.keyed, rfl⟩

end Sys2Proof.Machine
end

