-- ==== Sys2Proof/Tests/Slice0.lean ====
section
/-! SUPPORT. Tests against the spec's own tables and vectors (95_test_vectors.md), and for each statement with hypotheses a
concrete state that meets them. -/

namespace Sys2Proof.Tests

open Sys2Proof.Machine

/-! ### Well-formedness, and words written out from 30_encoding.md R80, R81 -/

theorem test_wf_refuses_nop_64 : (Instr.nop 64).wellFormed = false := by decide
theorem test_wf_refuses_loadKey_64 : (Instr.loadKey 64).wellFormed = false := by decide
theorem test_wf_refuses_start_64 : (Instr.start 64).wellFormed = false := by decide
theorem test_wf_refuses_block_64 : (Instr.block 64).wellFormed = false := by decide
theorem test_wf_accepts_block_63 : (Instr.block 63).wellFormed = true := by decide

theorem test_decode_nop : decode 0b000000000000000000_000000_0000_0000#32 = .ok (.nop 0) := by rfl
theorem test_decode_loadKey : decode 0b000000000000000000_011000_0000_0001#32 = .ok (.loadKey 24) := by rfl
theorem test_decode_start : decode 0b000000000000000000_000000_0000_0010#32 = .ok (.start 0) := by rfl
theorem test_decode_block : decode 0b000000000000000000_010000_0000_0011#32 = .ok (.block 16) := by rfl
theorem test_decode_reserved_op : decode 0x00000004#32 = .error .reservedOpcode := by rfl
theorem test_decode_reserved_rsv0 : decode 0x00000012#32 = .error .reservedBits := by rfl
theorem test_decode_reserved_rsv1 : decode 0x00004002#32 = .error .reservedBits := by rfl
theorem test_table_word : decodeTableWord 32 0x1003 = some (.block 16) := by decide

/-! ### The stand-in parameters of 95_test_vectors.md §0, and its vectors -/

/-- `SP[b] = 5 + (b mod 19)`; `SE`, `SD` add and subtract the key's first 16 bytes. -/
def standIn : Params where
  table b := ⟨b.val % 19, Nat.mod_lt _ (by decide)⟩
  cipher k :=
    { toFun := fun x => Vector.ofFn fun i => x[i] + k[i]
      invFun := fun x => Vector.ofFn fun i => x[i] - k[i]
      left_inv := by intro x; ext i hi; simp
      right_inv := by intro x; ext i hi; simp }

/-- The bytes of a number written in hexadecimal, first byte first. -/
def hexBytes (n v : Nat) : Bytes n := Vector.ofFn fun i => BitVec.ofNat 8 (v / 256 ^ (n - 1 - i.val))

/-- `K0`, byte `i` = `i`. -/
def key0 : Key := hexBytes 32 0x000102030405060708090A0B0C0D0E0F101112131415161718191A1B1C1D1E1F

/-- §2.2, mask 1, `o = 0x40`. -/
theorem test_derive_mask1 : derive standIn key0 0x40 (expand 1)
    = hexBytes 32 0x40010A030505062708090A0B0C0D0E0F101112131415161718191A1B1C1D1E1F := by decide +kernel

/-- §2.2, mask 15, `o = 0x210020`. -/
theorem test_derive_mask15 : derive standIn key0 0x210020 (expand 15)
    = hexBytes 32 0x801192011605444700410B020C2C2E0B3411969304851405185B5A13541C171F := by decide +kernel

/-- §2.2, mask 8, `o = 0x210000`. -/
theorem test_derive_mask8 : derive standIn key0 0x210000 (expand 8)
    = hexBytes 32 0x000102030405060708090A0B0C0D0E0F1011121314151617185B1A135C1C161F := by decide +kernel

/-- §2.2, the single-bit tweak of flag 23, its first two bits; key bit 38 is gated by flag 5. -/
theorem test_tweak_flag23 : tweak standIn 0x800000 [18, 37, 38]
    = hexBytes 32 0x0000200004000000000000000000000000000000000000000000000000000000 := by decide +kernel

/-- §2.3, encrypt and decrypt directions. -/
theorem test_wrap_encrypt : wrap standIn false key0 (hexBytes 16 0x101112131415161718191A1B1C1D1E1F)
    = hexBytes 16 0x01030507090B0D0F11131517191B1D1F := by decide +kernel
theorem test_wrap_decrypt : wrap standIn true key0 (hexBytes 16 0)
    = hexBytes 16 0x0F0E0D0C0B0A09080706050403020100 := by decide +kernel

/-- A keyed machine with an active run at the given direction, offset and input. -/
def activeRun (dir : Bool) (o : Word) (x : Block) : State :=
  { State.reset with
    mkey := key0, keyValid := true, keySize := .bytes32, runst := .active, rmask := 15, rdir := dir, offset := o, din := x }

/-- §3 P1, its first block: `DOUT`. -/
theorem test_p1_first_block :
    (blockData standIn 16 (activeRun false 0x210000 (hexBytes 16 0x101112131415161718191A1B1C1D1E1F))).dout
      = hexBytes 16 0x0503E607110ACD1711D515071B9B0D1F := by decide +kernel

/-- §3 P1, its short last block under the key of block 2: `STATUS` and `DOUT`. -/
theorem test_p1_short_block :
    (fun t : State => (t.statusWord, t.dout, t.offset))
        (blockData standIn 4 (activeRun false 0x210020 (hexBytes 16 0x01020304000000000000000000000000)))
      = (0x000264E0#32, hexBytes 16 0xF6D4D7F8FEF5BF00B9BCFBEAFF6EEF80, 0x00210024#32) := by decide +kernel

/-- §3 P2, the decrypt run gives the block back. -/
theorem test_p2_first_block :
    (blockData standIn 16 (activeRun true 0x210000 (hexBytes 16 0x0503E607110ACD1711D515071B9B0D1F))).dout
      = hexBytes 16 0x101112131415161718191A1B1C1D1E1F := by decide +kernel

/-! ### Commands (95_test_vectors.md §2.5) and bus accesses (§2.6), each one step -/

/-- A step's next state, or the state itself. -/
def after (s : State) : State :=
  match step s with
  | .next t => t
  | .fault _ => s
  | .refused _ => s

/-- `s` with one waiting move. -/
def withMove (s : State) (m : HostMove) : State := { s with bus := [m] }

theorem test_nop_bad_argument : (after (withMove State.reset (.write 0 4 0x100))).statusWord = 0x00000007#32 := by decide
theorem test_reserved_opcode : (after (withMove State.reset (.write 0 4 0x4))).statusWord = 0x00000006#32 := by decide
theorem test_load_key_32 : (after (withMove { State.reset with keystg := key0 } (.write 0 4 0x2001))).statusWord
    = 0x00020040#32 := by decide
theorem test_load_key_24 : (after (withMove { State.reset with keystg := key0 } (.write 0 4 0x1801))).mkey
    = hexBytes 32 0x000102030405060708090A0B0C0D0E0F101112131415161708090A0B0C0D0E0F := by decide +kernel
theorem test_start_no_key : (after (withMove State.reset (.write 0 4 0x2))).err = .noKey := by decide
theorem test_start_misaligned : (after (withMove { State.reset with base := 0x210001 } (.write 0 4 0x2))).err
    = .invalidAddress := by decide
theorem test_block_without_run : (after (withMove State.reset (.write 0 4 0x1003))).statusWord = 0x00000005#32 := by decide
theorem test_short_block_on_decrypt :
    (after (withMove (activeRun true 0x210010 (zeroBytes 16)) (.write 0 4 0x403))).statusWord = 0x00020143#32 := by decide
theorem test_load_key_in_run_aborts :
    (after (withMove (activeRun false 0 (zeroBytes 16)) (.write 0 4 0x2001))).statusWord = 0x00020145#32 := by decide
theorem test_narrow_cmd_write : (after (withMove State.reset (.write 0 1 2))).resp = .fault .busError := by decide
theorem test_misaligned_write : (after (withMove State.reset (.write 0x41 2 0xBEEF))).resp = .fault .busError := by decide
theorem test_half_write_din : (after (withMove State.reset (.write 0x42 2 0xBEEF))).din
    = hexBytes 16 0x0000EFBE000000000000000000000000 := by decide +kernel
theorem test_cfg_write : (after (withMove State.reset (.write 0x08 4 0xFFFFFFFF))).cfg = 0x1F := by decide
theorem test_read_base : (after (withMove { State.reset with base := 0x12345678 } (.read 0x0C 4))).resp
    = .data 0x12345678 := by decide
theorem test_read_dout : (after (withMove { State.reset with dout := hexBytes 16 0x0503E607110ACD1711D515071B9B0D1F }
    (.read 0x54 4))).resp = .data 0x17CD0A11 := by decide +kernel
theorem test_staging_unreadable : (after (withMove { State.reset with keystg := key0 } (.read 0x24 4))).resp
    = .data 0 := by decide

/-! ### States that meet the hypotheses of the statements -/

/-- An active encrypt run whose engine is not keyed. -/
def act : State := activeRun false 0x210000 (zeroBytes 16)

/-- A run that accepts only the end of stream. -/
def fin : State := { act with runst := .final, warnPad := true, padLen := 12 }

theorem act_invariants : Invariants act := by
  constructor <;> simp [act, activeRun, State.reset]

theorem act_block16 : exec (.block 16) act = .next (blockData Config.params 16 act) := rfl

theorem witness_DecodeEncodeRoundTrip : (Instr.block 63).wellFormed = true := by decide

theorem witness_EncodeDecodeRoundTrip : decode 0x00003F03#32 = .ok (.block 63) := by rfl

theorem witness_AssemblyStatementsExpand : (Statement.block 63).move = .write 0x00 4 0x3F03 := by rfl

theorem witness_BusAddressReachesOffset : 255 < 256 := by decide

theorem witness_StepRunsDecodedCommand :
    (withMove act (.write 0 4 0x1003)).bus = .write 0x00 4 0x1003 :: [] ∧ decode 0x1003 = .ok (.block 16) := ⟨rfl, rfl⟩

theorem witness_IllegalWordRaisesReservedCommand :
    (withMove act (.write 0 4 0x4)).bus = .write 0x00 4 0x4 :: []
      ∧ 4 ≤ ((0x4#32) &&& 0xF#32).toNat ∧ ((0x12#32) >>> 4) &&& 0xF#32 ≠ 0 ∧ (0x4000#32) >>> 14 ≠ 0 := by
  refine ⟨rfl, ?_, ?_, ?_⟩ <;> decide

theorem witness_MovesTakenInOrder : ∃ t, (withMove act (.read 4 4)).bus = .read 4 4 :: []
    ∧ step (withMove act (.read 4 4)) = .next t := ⟨_, rfl, rfl⟩

theorem witness_IllegalAccessChangesNothing :
    (withMove act (.write 0x1E 2 0)).bus = .write 0x1E 2 0 :: [] ∧ ¬LegalAccess 0x1E 2 ∧ ¬LegalAccess 0x20 3
      ∧ ¬LegalAccess 0x21 2 ∧ ¬LegalAccess 0x100 4 := by
  refine ⟨rfl, ?_⟩; decide

theorem witness_LegalReadReturnsWindowBytes :
    (withMove act (.read 0xFF 1)).bus = .read 0xFF 1 :: [] ∧ LegalAccess 0xFF 1 ∧ LegalAccess 0 4 := by
  refine ⟨rfl, ?_⟩; decide

theorem witness_StagingWriteStoresBytes :
    (withMove act (.write 0x3C 4 0)).bus = .write 0x3C 4 0 :: [] ∧ LegalAccess 0x3C 4 ∧ 0x20 ≤ 0x3C ∧ 0x3C < 0x40 := by
  refine ⟨rfl, ?_⟩; decide

theorem witness_InputWriteStoresBytes :
    (withMove act (.write 0x4F 1 0)).bus = .write 0x4F 1 0 :: [] ∧ LegalAccess 0x4F 1 ∧ 0x40 ≤ 0x4F ∧ 0x4F < 0x50 := by
  refine ⟨rfl, ?_⟩; decide

theorem witness_ConfigurationWritesStore :
    (withMove act (.write 0x08 4 0xFF)).bus = .write 0x08 4 0xFF :: []
      ∧ (withMove act (.write 0x0C 4 0xFF)).bus = .write 0x0C 4 0xFF :: [] := ⟨rfl, rfl⟩

theorem witness_ReadOnlyWritesIgnored :
    (withMove act (.write 0x50 1 1)).bus = .write 0x50 1 1 :: [] ∧ LegalAccess 0x50 1 ∧ LegalAccess 0x04 4
      ∧ LegalAccess 0x1C 4 ∧ LegalAccess 0xFF 1 := by
  refine ⟨rfl, ?_⟩; decide

theorem witness_KeysAreUnreadable : ∃ t u, (withMove act (.read 0x20 4)).bus = .read 0x20 4 :: []
    ∧ step (withMove act (.read 0x20 4)) = .next t
    ∧ step { withMove act (.read 0x20 4) with mkey := zeroBytes 32, keystg := key0, tkey := key0 } = .next u :=
  ⟨_, _, rfl, rfl, rfl⟩

theorem witness_ResetClearsEveryElement : (withMove act .reset).bus = .reset :: [] := rfl

theorem witness_StepKeepsInvariants : ∃ t, Invariants act ∧ step act = .next t := ⟨act, act_invariants, step_nil rfl⟩

theorem witness_InvariantsHoldWhenReachable :
    ∃ t, core.run 1 { State.reset with bus := [.write 0x08 4 0xF] } = .next t := ⟨_, rfl⟩

theorem witness_FailedCommandOnlyFails : ∃ t, exec (.block 17) act = .next t ∧ t.err ≠ .ok :=
  ⟨_, rfl, by decide⟩

theorem witness_ErrorPriority : ∃ t, (withMove act (.write 0 4 0x1403)).bus = .write 0x00 4 0x1403 :: []
    ∧ 3 = ((0x1403#32) &&& 0xF#32).toNat ∧ 20 = (((0x1403#32) >>> 8) &&& 0x3F#32).toNat
    ∧ step (withMove act (.write 0 4 0x1403)) = .next t := ⟨_, rfl, by decide, by decide, rfl⟩

theorem witness_LoadKey32Completes : State.reset.runst = .idle := rfl

theorem witness_LoadKey24ExtendsKey : ({ fin with runst := .done } : State).runst = .done := rfl

theorem witness_LoadKeyFailures : act.runst = .active ∧ fin.runst = .final ∧ State.reset.runst = .idle
    ∧ (23 : Nat) ≠ 24 ∧ (23 : Nat) ≠ 32 := by decide

theorem witness_StartBeginsRun : act.base.toNat % 16 = 0 ∧ act.keyValid = true := by decide

theorem witness_StartChecksInOrder : (1 : Nat) ≠ 0 ∧ ({ act with base := 0x210001 } : State).base.toNat % 16 ≠ 0
    ∧ State.reset.base.toNat % 16 = 0 ∧ State.reset.keyValid = false := by decide

theorem witness_StartTwiceIsStartOnce : ∃ t, exec (.start 0) act = .next t ∧ t.err = .ok := ⟨_, rfl, rfl⟩

theorem witness_BlockTransformsData :
    act.runst = .active ∧ (1 ≤ 1 ∧ 1 ≤ 16 ∧ act.rdir = false) ∧ (1 ≤ 16 ∧ 16 ≤ 16)
      ∧ act.keyed = false ∧ ¬({ act with keyed := true, offset := 0x10 } : State).offset.toNat % 32 = 0 := by decide

theorem witness_EndOfStreamEndsRun : act.runst = .active ∧ fin.runst = .final := by decide

theorem witness_BlockChecksInOrder : 16 < 17 ∧ (State.reset.runst = .idle ∧ 16 ≤ 16) ∧ (fin.runst = .final ∧ 1 ≤ 1)
    ∧ (activeRun true 0 (zeroBytes 16)).runst = .active ∧ (activeRun true 0 (zeroBytes 16)).rdir = true := by decide

theorem witness_LatchedParametersChangeOnlyAtStart : ∃ t, step (withMove { act with cfg := 3 } (.write 0 4 0x2)) = .next t
    ∧ t.rmask ≠ (withMove { act with cfg := 3 } (.write 0 4 0x2)).rmask ∧ t.runst = .active := ⟨_, rfl, by decide, rfl⟩

theorem witness_MasterKeyChangesOnlyByLoadKey : ∃ t, step (withMove { State.reset with keystg := key0 } (.write 0 4 0x2001)) = .next t
    ∧ t.mkey ≠ (withMove { State.reset with keystg := key0 } (.write 0 4 0x2001)).mkey
    ∧ t.keyValid ≠ (withMove { State.reset with keystg := key0 } (.write 0 4 0x2001)).keyValid :=
  ⟨_, rfl, by decide, by decide⟩

theorem witness_OutputChangesOnlyByDataBlock : ∃ t, step (withMove { act with dout := key0.take 16 } .reset) = .next t
    ∧ t.dout ≠ (withMove { act with dout := key0.take 16 } .reset).dout ∧ t.runst = .idle := ⟨_, rfl, by decide, rfl⟩

/-- Each run state entered from another: `ACTIVE`, `FINAL`, `DONE`, and `IDLE` by an error. -/
theorem witness_RunStateTransitions :
    (∃ t, step (withMove { fin with runst := .done } (.write 0 4 0x2)) = .next t ∧ t.runst = .active)
      ∧ (∃ t, step (withMove act (.write 0 4 0x403)) = .next t ∧ t.runst = .final)
      ∧ (∃ t, step (withMove fin (.write 0 4 0x3)) = .next t ∧ t.runst = .done)
      ∧ ∃ t, step (withMove fin (.write 0 4 0x1003)) = .next t ∧ t.runst = .idle :=
  ⟨⟨_, rfl, rfl⟩, ⟨_, rfl, rfl⟩, ⟨_, rfl, rfl⟩, ⟨_, rfl, rfl⟩⟩

theorem witness_OnlyCommandsAffectTheRun : ∃ t, step (withMove act (.write 0x40 4 1)) = .next t
    ∧ ¬(withMove act (.write 0x40 4 1)).resetsNext
    ∧ ¬∃ w rest, (withMove act (.write 0x40 4 1)).bus = .write 0x00 4 w :: rest := by
  refine ⟨_, rfl, ?_, ?_⟩
  · rintro ⟨rest, h⟩; simp [withMove] at h
  · rintro ⟨w, rest, h⟩; simp [withMove] at h

theorem witness_RunIgnoresLaterConfiguration : ∃ t, exec (.block 16) act = .next t ∧ t.err = .ok := ⟨_, act_block16, rfl⟩

theorem witness_WarningsNeverFailACommand : ∃ t, exec (.start 0) act = .next t := ⟨_, rfl⟩

theorem witness_DeriveIsXorWithTweak : ([0, 19, 255] : TweakRange).Nodup := by decide

theorem witness_DeriveRegionInvariance :
    (0x210000#32).toNat / 32 = (0x21001F#32).toNat / 32
      ∧ ((0x00000020#32) >>> 5).toNat % 2 ^ 19 = ((0x01000020#32) >>> 5).toNat % 2 ^ 19 := by decide

theorem witness_DeriveIsIdentityAt : (0x1F#32).toNat < 32 ∧ (0x01000000#32).toNat % 2 ^ 24 = 0 := by decide

theorem witness_DeriveIsLinear : ∀ b ∈ ([0, 66] : TweakRange), b ∉ ([67, 131] : TweakRange) := by simp

theorem witness_DeriveSingleOffsetBit : ([0, 19, 255] : TweakRange).Nodup ∧ 4 ≤ 4 ∧ 24 ≤ 24 ∧ 31 < 32 := by decide

theorem witness_KeyInUseIsDerivedAtOffset : ∃ t, Invariants act ∧ act.runst = .active ∧ exec (.block 16) act = .next t
    ∧ t.err = .ok := ⟨_, act_invariants, rfl, act_block16, rfl⟩

/-- Three blocks in a row, from an offset of `0 mod 32` and from one of `16 mod 32`. -/
theorem witness_RekeyCadence : ∀ o : Word, ∃ t u v, (activeRun false o (zeroBytes 16)).keyed = false
    ∧ exec (.block 16) (activeRun false o (zeroBytes 16)) = .next t ∧ exec (.block 16) { t with din := zeroBytes 16 } = .next u
    ∧ exec (.block 16) { u with din := zeroBytes 16 } = .next v := by
  intro o
  have hrun : ∀ s : State, s.runst = .active → exec (.block 16) s = .next (blockData Config.params 16 s) := by
    intro s hs
    rw [exec_block, blockCheck_eq_none.mpr ⟨le_rfl, .inl hs, by omega⟩]
    rfl
  have hact : ∀ s : State, s.runst = .active → (blockData Config.params 16 s).runst = .active := by
    intro s hs
    obtain ⟨k, a, v, h⟩ := engineKey_frame Config.params s.offset s
    rw [blockData_full (by omega), h]
    exact hs
  exact ⟨_, _, _, rfl, hrun _ rfl, hrun _ (hact _ rfl), hrun _ (hact _ (hact _ rfl))⟩

theorem witness_TransformIsPerBlock : ∃ ys t, transformBlocks [zeroBytes 16] act = some (ys, t) ∧ Invariants act
    ∧ act.runst = .active := by
  refine ⟨[(blockData Config.params 16 act).dout], blockData Config.params 16 act, ?_, act_invariants, rfl⟩
  rw [transformBlocks, show ({ act with din := zeroBytes 16 } : State) = act from rfl, act_block16]
  rfl

theorem witness_TransformCompletes : act.runst = .active := rfl

theorem dec_invariants : Invariants (activeRun true 0x210000 (zeroBytes 16)) := by
  constructor <;> simp [activeRun, State.reset]

theorem witness_EncryptThenDecryptRestores : Invariants (activeRun true 0x210000 (zeroBytes 16)) ∧ act.rdir = false
    ∧ (activeRun true 0x210000 (zeroBytes 16)).rdir = true ∧ (activeRun true 0x210000 (zeroBytes 16)).mkey = act.mkey
    ∧ (activeRun true 0x210000 (zeroBytes 16)).offset = act.offset ∧ (activeRun true 0x210000 (zeroBytes 16)).rmask = act.rmask
    ∧ (∃ ys t, transformBlocks [zeroBytes 16] act = some (ys, t)) :=
  ⟨dec_invariants, rfl, rfl, rfl, rfl, rfl, let ⟨ys, t, h, _⟩ := witness_TransformIsPerBlock; ⟨ys, t, h⟩⟩

end Sys2Proof.Tests
end

-- ==== The two directions of the block cipher (00_scope.md R12) ====
section

namespace Sys2Proof

/-- R12's first law: the model's inverse direction is the inverse of the permutation that the forward direction is. -/
@[simp] theorem Params.cipherD_cipherE (p : Params) (k : Key) (x : Block) : p.cipherD k (p.cipherE k x) = x :=
  (p.cipher k).symm_apply_apply x

/-- R12's second law, the same permutation composed with its inverse in the other order. -/
@[simp] theorem Params.cipherE_cipherD (p : Params) (k : Key) (x : Block) : p.cipherE k (p.cipherD k x) = x :=
  (p.cipher k).apply_symm_apply x

/-- Settles O44, by the two cancellation laws of the permutation each key selects. -/
theorem cipherDirectionsInvert : Obligations.CipherDirectionsInvert :=
  fun p k x => ⟨p.cipherD_cipherE k x, p.cipherE_cipherD k x⟩

end Sys2Proof
end

-- ==== What an error, the engine, a data block and a key load write and leave alone ====
section

namespace Sys2Proof.Machine

/-! `fail` (60_exceptions.md R181, R184) -/

@[simp] theorem fail_mkey (e : ErrCode) (s : State) : (fail e s).mkey = s.mkey := by
  obtain ⟨-, h⟩ | ⟨-, h⟩ := fail_cases e s <;> simp [h]

@[simp] theorem fail_keyValid (e : ErrCode) (s : State) : (fail e s).keyValid = s.keyValid := by
  obtain ⟨-, h⟩ | ⟨-, h⟩ := fail_cases e s <;> simp [h]

@[simp] theorem fail_keySize (e : ErrCode) (s : State) : (fail e s).keySize = s.keySize := by
  obtain ⟨-, h⟩ | ⟨-, h⟩ := fail_cases e s <;> simp [h]

@[simp] theorem fail_dout (e : ErrCode) (s : State) : (fail e s).dout = s.dout := by
  obtain ⟨-, h⟩ | ⟨-, h⟩ := fail_cases e s <;> simp [h]

@[simp] theorem fail_rmask (e : ErrCode) (s : State) : (fail e s).rmask = s.rmask := by
  obtain ⟨-, h⟩ | ⟨-, h⟩ := fail_cases e s <;> simp [h]

@[simp] theorem fail_rdir (e : ErrCode) (s : State) : (fail e s).rdir = s.rdir := by
  obtain ⟨-, h⟩ | ⟨-, h⟩ := fail_cases e s <;> simp [h]

/-! `engineKey` (42_cipher_engine.md R131) -/

/-- Once `ENGINE_KEY` has run the engine is keyed, by it or before it. -/
@[simp] theorem engineKey_keyed (p : Params) (o : Word) (s : State) : (engineKey p o s).keyed = true := by
  obtain ⟨-, h⟩ | ⟨hkeep, h⟩ := engineKey_cases p o s
  · simp [h]
  · rw [h]
    simp only [State.mustRekey, Bool.or_eq_false_iff, Bool.not_eq_false'] at hkeep
    exact hkeep.1

/-! `blockData` (43_commands.md R160, R161) -/

/-- A data-carrying block as one update: the engine keyed for its offset, the transform, the advance by the bytes it
took, and the pad note if it is short. -/
theorem blockData_eq (p : Params) (n : Nat) (s : State) :
    blockData p n s =
      { s with
        tkey := (engineKey p s.offset s).tkey, keyedAt := (engineKey p s.offset s).keyedAt, keyed := true
        dout := wrap p s.rdir (engineKey p s.offset s).tkey s.din
        offset := s.offset + BitVec.ofNat 32 n, blkcnt := s.blkcnt + 1, err := .ok
        warnPad := if n < 16 then true else s.warnPad
        padLen := if n < 16 then padLength n else s.padLen
        runst := if n < 16 then .final else s.runst } := by
  obtain ⟨k, a, v, h⟩ := engineKey_frame p s.offset s
  have hv : v = true := by simpa [h] using engineKey_keyed p s.offset s
  by_cases hn : n < 16
  · rw [blockData_short hn, h, hv]
    simp only [hn, if_true]
    rfl
  · rw [blockData_full hn, h, hv]
    simp only [hn, if_false]
    rfl

@[simp] theorem blockData_mkey (p : Params) (n : Nat) (s : State) : (blockData p n s).mkey = s.mkey := by
  rw [blockData_eq]

@[simp] theorem blockData_keyValid (p : Params) (n : Nat) (s : State) : (blockData p n s).keyValid = s.keyValid := by
  rw [blockData_eq]

@[simp] theorem blockData_keySize (p : Params) (n : Nat) (s : State) : (blockData p n s).keySize = s.keySize := by
  rw [blockData_eq]

@[simp] theorem blockData_rmask (p : Params) (n : Nat) (s : State) : (blockData p n s).rmask = s.rmask := by
  rw [blockData_eq]

@[simp] theorem blockData_rdir (p : Params) (n : Nat) (s : State) : (blockData p n s).rdir = s.rdir := by
  rw [blockData_eq]

@[simp] theorem blockData_err (p : Params) (n : Nat) (s : State) : (blockData p n s).err = .ok := by
  rw [blockData_eq]

@[simp] theorem blockData_runst (p : Params) (n : Nat) (s : State) :
    (blockData p n s).runst = if n < 16 then .final else s.runst := by
  rw [blockData_eq]

/-! `loadKeyEffect` (43_commands.md R152) -/

/-- A successful `LOAD_KEY` installs some key, of a size other than 'none'. -/
theorem loadKeyEffect_eq_installKey (n : Nat) (s : State) :
    ∃ k z, z ≠ .none ∧ loadKeyEffect n s = installKey k z s := by
  unfold loadKeyEffect
  split
  · exact ⟨_, _, by decide, rfl⟩
  · exact ⟨_, _, by decide, rfl⟩

@[simp] theorem loadKeyEffect_keyValid (n : Nat) (s : State) : (loadKeyEffect n s).keyValid = true := by
  obtain ⟨k, z, -, h⟩ := loadKeyEffect_eq_installKey n s
  simp [h]

@[simp] theorem loadKeyEffect_err (n : Nat) (s : State) : (loadKeyEffect n s).err = .ok := by
  obtain ⟨k, z, -, h⟩ := loadKeyEffect_eq_installKey n s
  simp [h]

@[simp] theorem loadKeyEffect_runst (n : Nat) (s : State) : (loadKeyEffect n s).runst = s.runst := by
  obtain ⟨k, z, -, h⟩ := loadKeyEffect_eq_installKey n s
  simp [h]

@[simp] theorem loadKeyEffect_dout (n : Nat) (s : State) : (loadKeyEffect n s).dout = s.dout := by
  obtain ⟨k, z, -, h⟩ := loadKeyEffect_eq_installKey n s
  simp [h]

@[simp] theorem loadKeyEffect_rmask (n : Nat) (s : State) : (loadKeyEffect n s).rmask = s.rmask := by
  obtain ⟨k, z, -, h⟩ := loadKeyEffect_eq_installKey n s
  simp [h]

@[simp] theorem loadKeyEffect_rdir (n : Nat) (s : State) : (loadKeyEffect n s).rdir = s.rdir := by
  obtain ⟨k, z, -, h⟩ := loadKeyEffect_eq_installKey n s
  simp [h]

end Sys2Proof.Machine
end

-- ==== Everything a command word and a step can do, by name ====
section

namespace Sys2Proof.Machine

/-- The next states of a `CMD` write of `w`: an error, whether of the word or of its command, or one of the five
effects. -/
inductive CommandEffect (w : Word) (s : State) : State → Prop where
  | failed (e : ErrCode) (he : e ≠ .ok) : CommandEffect w s (fail e s)
  | nop (hw : decode w = .ok (.nop 0)) : CommandEffect w s (setErr .ok s)
  | keyLoaded (n : Nat) (hw : decode w = .ok (.loadKey n)) (hn : n = 24 ∨ n = 32) (hidle : s.runActive = false) :
      CommandEffect w s (loadKeyEffect n s)
  | runBegun (hw : decode w = .ok (.start 0)) (hbase : s.base.toNat % 16 = 0) (hkey : s.keyValid = true) :
      CommandEffect w s (beginRun s)
  | runEnded (hw : decode w = .ok (.block 0)) (hrun : s.runActive = true) : CommandEffect w s (endRun s)
  | blockDone (n : Nat) (hw : decode w = .ok (.block n)) (hpos : 1 ≤ n) (hle : n ≤ 16) (hact : s.runst = .active)
      (hdir : n = 16 ∨ s.rdir = false) : CommandEffect w s (blockData Config.params n s)

theorem runCommand_effect {w : Word} {s t : State} (h : runCommand w s = .next t) : CommandEffect w s t := by
  obtain ⟨i, hw, hexec⟩ | ⟨r, -, rfl⟩ := runCommand_cases h
  · obtain ⟨e, he, rfl⟩ | ⟨rfl, rfl⟩ | ⟨n, rfl, hn, hidle, rfl⟩ | ⟨rfl, hbase, hkey, rfl⟩ | ⟨rfl, hrun, rfl⟩
      | ⟨n, rfl, hpos, hle, hact, hdir, rfl⟩ := exec_cases hexec
    · exact .failed e he
    · exact .nop hw
    · exact .keyLoaded n hw hn hidle
    · exact .runBegun hw hbase hkey
    · exact .runEnded hw hrun
    · exact .blockDone n hw hpos hle hact hdir
  · exact .failed _ (by decide)

/-- The next states of a step, the empty queue being an `access` that writes nothing. -/
inductive StepEffect (s : State) : State → Prop where
  | access (g : Bytes 32) (d : Block) (c : BitVec 5) (b : Word) (q : List HostMove) (r : Response) :
      StepEffect s { s with keystg := g, din := d, cfg := c, base := b, bus := q, resp := r }
  | reset (rest : List HostMove) (hb : s.bus = .reset :: rest) : StepEffect s { State.reset with bus := rest }
  | command (w : Word) (rest : List HostMove) (hb : s.bus = .write 0x00 4 w :: rest) (t : State)
      (ht : CommandEffect w { s with bus := rest, resp := .written } t) : StepEffect s t

theorem step_effect {s t : State} (h : step s = .next t) : StepEffect s t := by
  obtain ⟨-, rfl⟩ | ⟨rest, hb, rfl⟩ | ⟨m, rest, r, g, d, c, b, -, -, -, rfl⟩ | ⟨w, rest, hb, hrun⟩ := step_cases h
  · exact .access t.keystg t.din t.cfg t.base t.bus t.resp
  · exact .reset rest hb
  · exact .access g d c b rest r
  · exact .command w rest hb t (runCommand_effect hrun)

end Sys2Proof.Machine
end

-- ==== The invariants of 10_state.md R45 ====
section

namespace Sys2Proof.Machine

/-- Settles O21: no run, no key and a clear engine. -/
theorem resetSatisfiesInvariants : Obligations.ResetSatisfiesInvariants where
  active_has_key := by simp [State.reset]
  active_offset_aligned := by simp [State.reset]
  unkeyed_is_clear _ := ⟨rfl, rfl⟩
  keyed_in_run := by simp [State.reset]
  keyed_region := by simp [State.reset]
  final_is_padded := by simp [State.reset]
  keySize_none_iff := by simp [State.reset]

/-- The invariants say nothing of the registers the host writes, nor of its side of the bus. -/
theorem Invariants.after_access {s : State} (h : Invariants s) (g : Bytes 32) (d : Block) (c : BitVec 5) (b : Word)
    (q : List HostMove) (r : Response) :
    Invariants { s with keystg := g, din := d, cfg := c, base := b, bus := q, resp := r } :=
  ⟨h.active_has_key, h.active_offset_aligned, h.unkeyed_is_clear, h.keyed_in_run, h.keyed_region, h.final_is_padded,
    h.keySize_none_iff⟩

/-- The invariants say nothing of the error code. -/
theorem Invariants.after_setErr {s : State} (h : Invariants s) (e : ErrCode) : Invariants (setErr e s) :=
  ⟨h.active_has_key, h.active_offset_aligned, h.unkeyed_is_clear, h.keyed_in_run, h.keyed_region, h.final_is_padded,
    h.keySize_none_iff⟩

/-- With the run over and the engine clear, only (g) is left to say. -/
theorem Invariants.of_clear {s : State} (hrun : s.runActive = false) (hkeyed : s.keyed = false) (hat : s.keyedAt = 0)
    (htkey : s.tkey = zeroBytes 32) (hsize : s.keySize = .none ↔ s.keyValid = false) : Invariants s := by
  have hst := (runActive_eq_false_iff s).mp hrun
  exact
    { active_has_key := by rcases hst with h | h <;> simp [h]
      active_offset_aligned := by rcases hst with h | h <;> simp [h]
      unkeyed_is_clear := fun _ => ⟨hat, htkey⟩
      keyed_in_run := by simp [hkeyed]
      keyed_region := by simp [hkeyed]
      final_is_padded := by rcases hst with h | h <;> simp [h]
      keySize_none_iff := hsize }

/-- With no run active the engine is not keyed, by (d). -/
theorem Invariants.keyed_eq_false {s : State} (h : Invariants s) (hrun : s.runActive = false) : s.keyed = false := by
  by_contra hk
  obtain ⟨hact, -, -⟩ := h.keyed_in_run (by simpa using hk)
  simp [(runActive_iff s).mpr hact] at hrun

theorem Invariants.after_abortRun {s : State} (h : Invariants s) : Invariants (abortRun s) :=
  .of_clear rfl rfl rfl rfl h.keySize_none_iff

theorem Invariants.after_fail {s : State} (h : Invariants s) (e : ErrCode) : Invariants (fail e s) := by
  obtain ⟨-, hf⟩ | ⟨-, hf⟩ := fail_cases e s
  · exact hf ▸ (h.after_setErr e).after_abortRun
  · exact hf ▸ h.after_setErr e

theorem Invariants.after_endRun {s : State} (h : Invariants s) : Invariants (endRun s) :=
  .of_clear rfl rfl rfl rfl h.keySize_none_iff

/-- A key may change only because no engine caches one derived from it while no run is active. -/
theorem Invariants.after_loadKeyEffect {s : State} (h : Invariants s) (hrun : s.runActive = false) (n : Nat) :
    Invariants (loadKeyEffect n s) := by
  obtain ⟨k, z, hz, heq⟩ := loadKeyEffect_eq_installKey n s
  have hkeyed := h.keyed_eq_false hrun
  obtain ⟨hat, htkey⟩ := h.unkeyed_is_clear hkeyed
  rw [heq]
  exact .of_clear hrun hkeyed hat htkey (by simp [hz])

theorem Invariants.after_beginRun {s : State} (h : Invariants s) (hbase : s.base.toNat % 16 = 0)
    (hkey : s.keyValid = true) : Invariants (beginRun s) where
  active_has_key _ := hkey
  active_offset_aligned _ := hbase
  unkeyed_is_clear _ := ⟨rfl, rfl⟩
  keyed_in_run := by simp
  keyed_region := by simp
  final_is_padded := by simp
  keySize_none_iff := h.keySize_none_iff

/-- Whatever the engine had cached, after `ENGINE_KEY` at the offset of an active run it holds the key of an aligned
offset in the 32-byte region of that offset: either it has just derived it, or the offset lies 16 bytes into the region
that (e) gives the cached key. -/
theorem Invariants.engineKey_region {s : State} (h : Invariants s) (hact : s.runst = .active) :
    (engineKey Config.params s.offset s).keyedAt.toNat % 16 = 0
      ∧ (engineKey Config.params s.offset s).keyedAt.toNat / 32 = s.offset.toNat / 32
      ∧ (engineKey Config.params s.offset s).tkey
          = derive Config.params s.mkey (engineKey Config.params s.offset s).keyedAt s.range := by
  have haligned := h.active_offset_aligned hact
  obtain ⟨-, he⟩ | ⟨hkeep, he⟩ := engineKey_cases Config.params s.offset s
  · rw [he]
    exact ⟨haligned, rfl, rfl⟩
  · have hcached : s.keyed = true ∧ ¬s.offset.toNat % 32 = 0 := by
      simpa [State.mustRekey] using hkeep
    obtain ⟨hkeyed, hmid⟩ := hcached
    obtain ⟨-, hat, htkey⟩ := h.keyed_in_run hkeyed
    have hregion : s.keyedAt.toNat / 32 = (s.offset - 16).toNat / 32 := h.keyed_region hkeyed hact
    have hback : (s.offset - 16).toNat = s.offset.toNat - 16 := by bv_omega
    rw [he]
    exact ⟨hat, by omega, htkey⟩

/-- The pad note of a short block lies in 1..15 (10_state.md R40). -/
theorem padLength_toNat {n : Nat} (hpos : 1 ≤ n) : (padLength n).toNat = 16 - n := by
  rw [padLength, BitVec.toNat_ofNat, Nat.mod_eq_of_lt (by omega)]

theorem Invariants.after_blockData {s : State} (h : Invariants s) (hact : s.runst = .active) {n : Nat} (hpos : 1 ≤ n)
    (hle : n ≤ 16) : Invariants (blockData Config.params n s) := by
  obtain ⟨hat, hregion, htkey⟩ := h.engineKey_region hact
  have haligned := h.active_offset_aligned hact
  have hkey : s.keyValid = true := h.active_has_key (.inl hact)
  have hfull : (blockData Config.params n s).runst = .active → n = 16 := by
    rw [blockData_runst]
    split
    · simp
    · omega
  have hshort : (blockData Config.params n s).runst = .final → n < 16 := by
    rw [blockData_runst, hact]
    split <;> simp [*]
  rw [blockData_eq] at hfull hshort ⊢
  exact
    { active_has_key := fun _ => hkey
      active_offset_aligned := by
        intro hr
        obtain rfl := hfull hr
        change (s.offset + 16#32).toNat % 16 = 0
        bv_omega
      unkeyed_is_clear := by simp
      keyed_in_run := by
        refine fun _ => ⟨?_, hat, htkey⟩
        by_cases hn : n < 16
        · simp [hn]
        · simp [hn, hact]
      keyed_region := by
        intro _ hr
        obtain rfl := hfull hr
        change _ = (s.offset + 16#32 - 16#32).toNat / 32
        rw [BitVec.add_sub_cancel]
        exact hregion
      final_is_padded := by
        intro hr
        have hn := hshort hr
        simp only [hn, if_true, padLength_toNat hpos, true_and]
        omega
      keySize_none_iff := h.keySize_none_iff }

theorem Invariants.after_commandEffect {w : Word} {s t : State} (h : Invariants s) (ht : CommandEffect w s t) :
    Invariants t := by
  cases ht with
  | failed e _ => exact h.after_fail e
  | nop _ => exact h.after_setErr .ok
  | keyLoaded n _ _ hidle => exact h.after_loadKeyEffect hidle n
  | runBegun _ hbase hkey => exact h.after_beginRun hbase hkey
  | runEnded _ _ => exact h.after_endRun
  | blockDone n _ hpos hle hact _ => exact h.after_blockData hact hpos hle

/-- Settles O22, by the rule of each effect a step can have. -/
theorem stepKeepsInvariants : Obligations.StepKeepsInvariants := by
  intro s t hs hstep
  cases step_effect hstep with
  | access g d c b q r => exact hs.after_access g d c b q r
  | reset rest _ => exact resetSatisfiesInvariants.after_access _ _ _ _ rest _
  | command w rest _ _ ht => exact (hs.after_access _ _ _ _ rest .written).after_commandEffect ht

/-- Settles O23: they hold at reset, whatever moves wait, and every step keeps them. -/
theorem invariantsHoldWhenReachable : Obligations.InvariantsHoldWhenReachable := by
  intro moves k t hrun
  exact run_keeps core Invariants stepKeepsInvariants k _ t (resetSatisfiesInvariants.after_access _ _ _ _ moves _) hrun

end Sys2Proof.Machine
end

-- ==== Which step can change what of a run (10_state.md) ====
section

namespace Sys2Proof.Machine

/-- Everything a step can do to the run state. -/
theorem step_runst_cases {s t : State} (h : step s = .next t) :
    t.runst = s.runst
      ∨ (t.runst = .idle ∧ s.resetsNext)
      ∨ (t.runst = .idle ∧ (s.runst = .active ∨ s.runst = .final) ∧ t.err ≠ .ok ∧ t.aborted = true)
      ∨ (t.runst = .active ∧ s.issues (.start 0) ∧ t.err = .ok)
      ∨ (t.runst = .done ∧ s.issues (.block 0) ∧ t.err = .ok)
      ∨ (t.runst = .final ∧ ∃ n, 1 ≤ n ∧ n ≤ 15 ∧ s.issues (.block n) ∧ t.err = .ok) := by
  cases step_effect h with
  | access g d c b q r => exact .inl rfl
  | reset rest hb => exact .inr (.inl ⟨rfl, rest, hb⟩)
  | command w rest hb _ ht =>
    cases ht with
    | failed e he =>
      obtain ⟨hact, hf⟩ | ⟨-, hf⟩ := fail_cases e { s with bus := rest, resp := .written }
      · rw [hf]
        exact .inr (.inr (.inl ⟨rfl, (runActive_iff _).mp hact, he, rfl⟩))
      · rw [hf]
        exact .inl rfl
    | nop _ => exact .inl rfl
    | keyLoaded n _ _ _ => exact .inl (loadKeyEffect_runst n _)
    | runBegun hw _ _ => exact .inr (.inr (.inr (.inl ⟨rfl, ⟨w, rest, hb, hw⟩, rfl⟩)))
    | runEnded hw _ => exact .inr (.inr (.inr (.inr (.inl ⟨rfl, ⟨w, rest, hb, hw⟩, rfl⟩))))
    | blockDone n hw hpos hle _ _ =>
      by_cases hn : n < 16
      · exact .inr (.inr (.inr (.inr (.inr
          ⟨by simp [hn], n, hpos, by omega, ⟨w, rest, hb, hw⟩, blockData_err _ _ _⟩))))
      · exact .inl (by simp [hn])

/-- Settles O37, from the six things a step can do to the run state. -/
theorem runStateTransitions : Obligations.RunStateTransitions := by
  intro s t hstep
  obtain hsame | ⟨ht, hreset⟩ | ⟨ht, habort⟩ | ⟨ht, hstart⟩ | ⟨ht, hend⟩ | ⟨ht, hpad⟩ := step_runst_cases hstep
  · rw [hsame]
    exact ⟨.inl, .inl, .inl, .inl⟩
  · simp [ht, hreset]
  · simp [ht, habort]
  · simp [ht, hstart]
  · simp [ht, hend]
  · simpa [ht] using .inr hpad

/-- Settles O38: every effect but a reset and a key load leaves the three fields alone. -/
theorem masterKeyChangesOnlyByLoadKey : Obligations.MasterKeyChangesOnlyByLoadKey := by
  intro s t hstep hne
  cases step_effect hstep with
  | access g d c b q r => simp at hne
  | reset rest hb => exact .inl ⟨rest, hb⟩
  | command w rest hb _ ht =>
    cases ht with
    | failed e _ => simp at hne
    | nop _ => simp at hne
    | keyLoaded n hw hn hidle =>
      refine .inr ⟨?_, (runActive_eq_false_iff _).mp hidle, loadKeyEffect_keyValid n _, loadKeyEffect_err n _⟩
      obtain rfl | rfl := hn
      · exact .inl ⟨w, rest, hb, hw⟩
      · exact .inr ⟨w, rest, hb, hw⟩
    | runBegun _ _ _ => simp at hne
    | runEnded _ _ => simp at hne
    | blockDone n _ _ _ _ _ => simp at hne

/-- Settles O39: `DOUT` is written by reset and by a data-carrying block alone. -/
theorem outputChangesOnlyByDataBlock : Obligations.OutputChangesOnlyByDataBlock := by
  intro s t hstep hne
  cases step_effect hstep with
  | access g d c b q r => simp at hne
  | reset rest hb => exact .inl ⟨rest, hb⟩
  | command w rest hb _ ht =>
    cases ht with
    | failed e _ => simp at hne
    | nop _ => simp at hne
    | keyLoaded n _ _ _ => simp at hne
    | runBegun _ _ _ => simp at hne
    | runEnded _ _ => simp at hne
    | blockDone n hw hpos hle _ _ => exact .inr ⟨n, hpos, hle, ⟨w, rest, hb, hw⟩, blockData_err _ _ _⟩

/-- A step that neither resets nor begins a run keeps the latched mask and direction (10_state.md R42). -/
theorem step_latched_cases {s t : State} (h : step s = .next t) :
    (t.rmask = s.rmask ∧ t.rdir = s.rdir) ∨ s.resetsNext ∨ (s.issues (.start 0) ∧ t.err = .ok) := by
  cases step_effect h with
  | access g d c b q r => exact .inl ⟨rfl, rfl⟩
  | reset rest hb => exact .inr (.inl ⟨rest, hb⟩)
  | command w rest hb _ ht =>
    cases ht with
    | failed e _ => exact .inl ⟨fail_rmask e _, fail_rdir e _⟩
    | nop _ => exact .inl ⟨rfl, rfl⟩
    | keyLoaded n _ _ _ => exact .inl ⟨loadKeyEffect_rmask n _, loadKeyEffect_rdir n _⟩
    | runBegun hw _ _ => exact .inr (.inr ⟨⟨w, rest, hb, hw⟩, rfl⟩)
    | runEnded _ _ => exact .inl ⟨rfl, rfl⟩
    | blockDone n _ _ _ _ _ => exact .inl ⟨blockData_rmask _ n _, blockData_rdir _ n _⟩

/-- Settles O40; the range is a function of the latched mask (10_state.md R43). -/
theorem latchedParametersChangeOnlyAtStart : Obligations.LatchedParametersChangeOnlyAtStart := by
  intro s t hstep hne
  obtain ⟨hmask, hdir⟩ | hcause := step_latched_cases hstep
  · have hrange : t.range = s.range := congrArg expand hmask
    simp [hmask, hdir, hrange] at hne
  · exact hcause

/-- Settles O41: without a reset and a command write, a step is an access to the four writable registers. -/
theorem onlyCommandsAffectTheRun : Obligations.OnlyCommandsAffectTheRun := by
  intro s t hstep hreset hcommand
  cases step_effect hstep with
  | access g d c b q r => exact ⟨g, d, c, b, q, r, rfl⟩
  | reset rest hb => exact absurd ⟨rest, hb⟩ hreset
  | command w rest hb _ _ => exact absurd ⟨w, rest, hb⟩ hcommand

end Sys2Proof.Machine
end

-- ==== The fields of STATUS (10_state.md R29) ====
section

namespace Sys2Proof.Machine

/-- Bit `i` of `STATUS`, field by field in the order of R29's table. -/
theorem statusWord_getLsbD (s : State) (i : Nat) :
    s.statusWord.getLsbD i =
      if i < 4 then s.err.code.getLsbD i
      else if i < 6 then s.runst.code.getLsbD (i - 4)
      else if i = 6 then s.keyValid
      else if i = 7 then s.keyed
      else if i = 8 then s.aborted
      else if i = 9 then s.warnMask0
      else if i = 10 then s.warnPad
      else if i < 16 then s.padLen.getLsbD (i - 11)
      else if i < 18 then s.keySize.code.getLsbD (i - 16)
      else false := by
  simp only [State.statusWord, BitVec.getLsbD_append, BitVec.getLsbD_ofBool]
  by_cases hi : i < 18
  · interval_cases i <;> simp
  · obtain ⟨j, rfl⟩ := Nat.exists_eq_add_of_le (not_lt.mp hi)
    grind

/-- Settles O13: each field by the bits of `STATUS` it covers. -/
theorem statusFieldsInPlace : Obligations.StatusFieldsInPlace := by
  refine ⟨fun s => ⟨?err, ?runst, ?keyValid, ?keyed, ?aborted, ?warnMask0, ?warnPad, ?padLen, ?keySize, ?reserved⟩,
    rfl, rfl, rfl⟩
  case keyValid | keyed | aborted | warnMask0 | warnPad => simp only [statusWord_getLsbD]; rfl
  case reserved =>
    refine BitVec.eq_of_getLsbD_eq fun i _ => ?_
    rw [BitVec.getLsbD_ushiftRight, statusWord_getLsbD]
    grind
  case err | runst | padLen | keySize =>
    refine BitVec.eq_of_getLsbD_eq fun i hi => ?_
    rw [BitVec.getLsbD_extractLsb', statusWord_getLsbD]
    grind

end Sys2Proof.Machine
end

-- ==== What the bytes of the register window read as (20_memory.md R52, R53, R57) ====
section

namespace Sys2Proof.Machine

@[simp] theorem byteOf_zero (j : Nat) : byteOf 0 j = 0 := by
  simp [byteOf]

/-- The five storage bits of `CFG`, read as a word, are the value written under the mask `0x1F` (10_state.md R31). -/
theorem setWidth_five_eq_and (v : Word) : (v.setWidth 5).setWidth 32 = v &&& 0x1F#32 := by
  refine BitVec.eq_of_toNat_eq ?_
  have hmask : v.toNat &&& 0x1F = v.toNat % 2 ^ 5 := Nat.and_two_pow_sub_one_eq_mod v.toNat 5
  have hsmall : v.toNat % 2 ^ 5 < 2 ^ 32 := by omega
  rw [BitVec.toNat_setWidth, BitVec.toNat_setWidth, Nat.mod_eq_of_lt hsmall]
  exact hmask.symm

/-- Byte `j` of control register number `r` (20_memory.md R53). -/
theorem windowByte_control (s : State) {r j : Nat} (hr : r < 8) (hj : j < 4) :
    windowByte s (4 * r + j) = byteOf (controlWord s r) j := by
  have hnumber : (4 * r + j) / 4 = r := by omega
  have hbyte : (4 * r + j) % 4 = j := by omega
  rw [windowByte, if_pos (by omega), hnumber, hbyte]

theorem windowByte_keystg (s : State) {i : Nat} (hi : i < 32) : windowByte s (0x20 + i) = 0 := by
  rw [windowByte, if_neg (by omega), dif_neg (by omega), dif_neg (by omega)]

theorem windowByte_din (s : State) (i : Fin 16) : windowByte s (0x40 + i.val) = s.din[i] := by
  rw [windowByte, if_neg (by omega), dif_pos (by omega)]
  simp

theorem windowByte_dout (s : State) (i : Fin 16) : windowByte s (0x50 + i.val) = s.dout[i] := by
  rw [windowByte, if_neg (by omega), dif_neg (by omega), dif_pos (by omega)]
  simp

theorem windowByte_reserved (s : State) {o : Nat} (ho : 0x60 ≤ o) : windowByte s o = 0 := by
  rw [windowByte, if_neg (by omega), dif_neg (by omega), dif_neg (by omega)]

/-- Settles O12: the eight control registers by number, then the four regions above them. -/
theorem windowByteFollowsRegisterMap : Obligations.WindowByteFollowsRegisterMap := by
  intro s
  refine ⟨fun j hj => ?control, fun i hi => windowByte_keystg s hi,
    fun i => ⟨windowByte_din s i, windowByte_dout s i⟩, fun o ho => windowByte_reserved s ho⟩
  have hregister (r : Nat) (hr : r < 8) := windowByte_control s hr hj
  exact ⟨(hregister 0 (by decide)).trans (byteOf_zero j), hregister 1 (by decide), hregister 2 (by decide),
    hregister 3 (by decide), hregister 4 (by decide), hregister 5 (by decide), hregister 6 (by decide),
    (hregister 7 (by decide)).trans (byteOf_zero j)⟩

end Sys2Proof.Machine
end

-- ==== The data of a read (20_memory.md R53, R57) ====
section

namespace Sys2Proof.Machine

@[simp] theorem readWindow_zero (s : State) (off : Nat) : readWindow s off 0 = 0 := rfl

/-- A read one byte wider holds one byte more above the others. -/
theorem readWindow_succ (s : State) (off n : Nat) :
    readWindow s off (n + 1) = readWindow s off n ||| ((windowByte s (off + n)).setWidth 32 <<< (8 * n)) := by
  simp [readWindow, List.range_succ]

/-- Bit `i` of a read of any width is bit `i mod 8` of the window byte `i div 8` after the first. -/
theorem readWindow_getLsbD (s : State) (off n i : Nat) (hi : i < 32) :
    (readWindow s off n).getLsbD i = (decide (i < 8 * n) && (windowByte s (off + i / 8)).getLsbD (i % 8)) := by
  induction n with
  | zero => simp
  | succ n ih =>
    rw [readWindow_succ, BitVec.getLsbD_or, ih, BitVec.getLsbD_shiftLeft, BitVec.getLsbD_setWidth]
    obtain hbelow | ⟨hfrom, hbyte⟩ | habove : i < 8 * n ∨ (8 * n ≤ i ∧ i < 8 * (n + 1)) ∨ 8 * (n + 1) ≤ i := by omega
    · have hwider : i < 8 * (n + 1) := by omega
      simp [hbelow, hwider]
    · have hnumber : i / 8 = n := by omega
      have hbit : i % 8 = i - 8 * n := by omega
      have hword : i - 8 * n < 32 := by omega
      simp [hi, hbyte, hnumber, hbit, hword, Nat.not_lt.mpr hfrom]
    · have hpast : (windowByte s (off + n)).getLsbD (i - 8 * n) = false := BitVec.getLsbD_of_ge _ _ (by omega)
      have hlow : ¬i < 8 * n := by omega
      simp [hpast, hlow, Nat.not_lt.mpr habove]

/-- Byte `j` of the answer to a read: a window byte below the width, 0 from the width on (log 5). -/
theorem byteOf_readWindow (s : State) (off n : Nat) {j : Nat} (hj : j < 4) :
    byteOf (readWindow s off n) j = if j < n then windowByte s (off + j) else 0 := by
  refine BitVec.eq_of_getLsbD_eq fun i hi => ?_
  have hnumber : (8 * j + i) / 8 = j := by omega
  have hbit : (8 * j + i) % 8 = i := by omega
  rw [byteOf, BitVec.getLsbD_extractLsb', readWindow_getLsbD s off n _ (by omega), hnumber, hbit]
  by_cases hn : j < n
  · have hin : 8 * j + i < 8 * n := by omega
    simp [hi, hn, hin]
  · have hout : ¬8 * j + i < 8 * n := by omega
    simp [hn, hout]

/-- `MKEY`, `KEYSTG`, `TKEY` and the host's side of the bus are no part of what a read returns (20_memory.md R61). -/
theorem readWindow_hidden (s : State) (k g tk : Bytes 32) (q : List HostMove) (r : Response) (off n : Nat) :
    readWindow { s with mkey := k, keystg := g, tkey := tk, bus := q, resp := r } off n = readWindow s off n := rfl

end Sys2Proof.Machine
end

-- ==== The bytes a write stores (20_memory.md R54, R58) ====
section

namespace Sys2Proof.Machine

/-- The buffer `x`, whose byte `i` is window byte `base + i`, after a write of the first `n` bytes of `v` at window
offset `off`. -/
def storeBytes {m : Nat} (base off n : Nat) (v : Word) (x : Bytes m) : Bytes m :=
  Vector.ofFn fun i => if off ≤ base + i.val ∧ base + i.val < off + n then byteOf v (base + i.val - off) else x[i]

theorem storeBytes_get {m : Nat} (base off n : Nat) (v : Word) (x : Bytes m) (i : Fin m) :
    (storeBytes base off n v x)[i] =
      if off ≤ base + i.val ∧ base + i.val < off + n then byteOf v (base + i.val - off) else x[i] := by
  simp [storeBytes]

@[simp] theorem storeBytes_zero {m : Nat} (base off : Nat) (v : Word) (x : Bytes m) :
    storeBytes base off 0 v x = x := by
  ext1 i hi
  have hnone : ¬(off ≤ base + i ∧ base + i < off) := by omega
  simp [storeBytes, hnone]

/-- A write one byte longer stores one byte more, after the others. -/
theorem storeBytes_succ {m base off n : Nat} (v : Word) (x : Bytes m) (hbase : base ≤ off) (hend : off + n - base < m) :
    storeBytes base off (n + 1) v x = (storeBytes base off n v x).set (off + n - base) (byteOf v n) := by
  ext1 i hi
  rw [Vector.getElem_set]
  simp only [storeBytes, Vector.getElem_ofFn]
  by_cases hlast : off + n - base = i
  · have hin : off ≤ base + i ∧ base + i < off + (n + 1) := by omega
    have hdist : base + i - off = n := by omega
    rw [if_pos hin, if_pos hlast, hdist]
  · have hsame : base + i < off + (n + 1) ↔ base + i < off + n := by omega
    simp only [if_neg hlast, hsame]

/-- Above the control region a write of no bytes stores nothing. -/
theorem writeWindow_zero {off : Nat} (v : Word) (s : State) (hoff : 0x20 ≤ off) : writeWindow off 0 v s = s := by
  rw [writeWindow, if_neg (by omega)]
  rfl

/-- Above the control region a write one byte wider writes one byte more, after the others (20_memory.md R54). -/
theorem writeWindow_succ {off : Nat} (n : Nat) (v : Word) (s : State) (hoff : 0x20 ≤ off) :
    writeWindow off (n + 1) v s = writeByte (off + n) (byteOf v n) (writeWindow off n v s) := by
  rw [writeWindow, writeWindow, if_neg (by omega), if_neg (by omega), List.range_succ, List.foldl_append]
  rfl

theorem writeWindow_keystg {off n : Nat} (v : Word) (s : State) (hoff : 0x20 ≤ off) (hend : off + n ≤ 0x40) :
    writeWindow off n v s = { s with keystg := storeBytes 0x20 off n v s.keystg } := by
  induction n with
  | zero => rw [writeWindow_zero v s hoff, storeBytes_zero]
  | succ n ih =>
    rw [writeWindow_succ n v s hoff, ih (by omega), writeByte, dif_pos (by omega),
      storeBytes_succ v s.keystg hoff (by omega)]

theorem writeWindow_din {off n : Nat} (v : Word) (s : State) (hoff : 0x40 ≤ off) (hend : off + n ≤ 0x50) :
    writeWindow off n v s = { s with din := storeBytes 0x40 off n v s.din } := by
  have hbuffer : 0x20 ≤ off := by omega
  induction n with
  | zero => rw [writeWindow_zero v s hbuffer, storeBytes_zero]
  | succ n ih =>
    rw [writeWindow_succ n v s hbuffer, ih (by omega), writeByte, dif_neg (by omega), dif_pos (by omega),
      storeBytes_succ v s.din hoff (by omega)]

/-- `DOUT` and the reserved bytes above it ignore writes (20_memory.md R58 (b)). -/
theorem writeWindow_readOnly {off : Nat} (n : Nat) (v : Word) (s : State) (hoff : 0x50 ≤ off) :
    writeWindow off n v s = s := by
  have hbuffer : 0x20 ≤ off := by omega
  induction n with
  | zero => exact writeWindow_zero v s hbuffer
  | succ n ih => rw [writeWindow_succ n v s hbuffer, ih, writeByte, dif_neg (by omega), dif_neg (by omega)]

/-- Of the control region a write other than to `CMD` reaches `CFG` and `BASE` alone (20_memory.md R58 (b)). -/
theorem writeWindow_control_ignored {off : Nat} (n : Nat) (v : Word) (s : State) (hcontrol : off < 0x20)
    (hcfg : off ≠ 0x08) (hbase : off ≠ 0x0C) : writeWindow off n v s = s := by
  rw [writeWindow, if_pos hcontrol, writeControl, if_neg hcfg, if_neg hbase]

/-- A legal access that begins below a word boundary ends there at the latest, so that none spans two registers
(20_memory.md R56). -/
theorem LegalAccess.end_le {off n b : Nat} (h : LegalAccess off n) (hoff : off < b) (hb : b % 4 = 0) : off + n ≤ b := by
  obtain ⟨rfl | rfl | rfl, haligned, -, -⟩ := h <;> omega

end Sys2Proof.Machine
end

-- ==== The host's accesses, one step each (20_memory.md) ====
section

namespace Sys2Proof.Machine

theorem step_read_legal {s : State} {off n : Nat} {rest : List HostMove} (hb : s.bus = .read off n :: rest)
    (hl : LegalAccess off n) : step s = .next { s with bus := rest, resp := .data (readWindow s off n) } :=
  (step_cons hb).trans (serveRead_legal _ hl)

theorem step_read_illegal {s : State} {off n : Nat} {rest : List HostMove} (hb : s.bus = .read off n :: rest)
    (hl : ¬LegalAccess off n) : step s = .next { s with bus := rest, resp := .fault .busError } :=
  (step_cons hb).trans (serveRead_illegal _ hl)

/-- The answer to a read, legal or not. -/
theorem step_read_resp {s t : State} {off n : Nat} {rest : List HostMove} (hb : s.bus = .read off n :: rest)
    (h : step s = .next t) :
    t.resp = if LegalAccess off n then .data (readWindow s off n) else .fault .busError := by
  by_cases hl : LegalAccess off n
  · obtain rfl := Host.Outcome.next.inj ((step_read_legal hb hl).symm.trans h)
    exact (if_pos hl).symm
  · obtain rfl := Host.Outcome.next.inj ((step_read_illegal hb hl).symm.trans h)
    exact (if_neg hl).symm

theorem step_write_illegal {s : State} {off n : Nat} {v : Word} {rest : List HostMove}
    (hb : s.bus = .write off n v :: rest) (hl : ¬LegalAccess off n) :
    step s = .next { s with bus := rest, resp := .fault .busError } :=
  (step_cons hb).trans (serveWrite_illegal v _ hl)

theorem step_write_store {s : State} {off n : Nat} {v : Word} {rest : List HostMove}
    (hb : s.bus = .write off n v :: rest) (hl : LegalAccess off n) (h0 : off ≠ 0) :
    step s = .next (writeWindow off n v { s with bus := rest, resp := .written }) :=
  (step_cons hb).trans (serveWrite_store v _ hl h0)

/-- No command word moves the host's queue. -/
theorem runCommand_bus {w : Word} {s t : State} (h : runCommand w s = .next t) : t.bus = s.bus := by
  obtain ⟨i, -, hexec⟩ | ⟨r, -, rfl⟩ := runCommand_cases h
  · exact (exec_keeps_host_side hexec).1
  · exact fail_bus _ s

/-- Settles O9: whatever the move, what waited behind it still waits. -/
theorem movesTakenInOrder : Obligations.MovesTakenInOrder := by
  intro s t m rest hb hstep
  have hrest {m' : HostMove} {rest' : List HostMove} (hb' : s.bus = m' :: rest') : rest' = rest :=
    (List.cons.inj (hb'.symm.trans hb)).2
  obtain ⟨hempty, -⟩ | ⟨rest', hb', rfl⟩ | ⟨m', rest', r, g, d, c, b, hb', -, -, rfl⟩ | ⟨w, rest', hb', hrun⟩ :=
    step_cases hstep
  · simp [hb] at hempty
  · exact hrest hb'
  · exact hrest hb'
  · exact (runCommand_bus hrun).trans (hrest hb')

/-- Settles O10, for reads and for writes. -/
theorem illegalAccessChangesNothing : Obligations.IllegalAccessChangesNothing := by
  intro s off n v rest hb hl
  obtain hread | hwrite := hb
  · exact step_read_illegal hread hl
  · exact step_write_illegal hwrite hl

/-- Settles O11: the answer is `readWindow`, whose bytes are the window's. -/
theorem legalReadReturnsWindowBytes : Obligations.LegalReadReturnsWindowBytes := by
  intro s off n rest hb hl
  exact ⟨readWindow s off n, step_read_legal hb hl, fun j hj => byteOf_readWindow s off n hj⟩

/-- Settles O14: a legal write that begins in the staging buffer ends in it. -/
theorem stagingWriteStoresBytes : Obligations.StagingWriteStoresBytes := by
  intro s off n v rest hb hl hlow hhigh
  refine ⟨storeBytes 0x20 off n v s.keystg, ?_, fun i => storeBytes_get 0x20 off n v s.keystg i⟩
  rw [step_write_store hb hl (by omega), writeWindow_keystg v _ hlow (hl.end_le hhigh (by decide))]

/-- Settles O15: a legal write that begins in `DIN` ends in it. -/
theorem inputWriteStoresBytes : Obligations.InputWriteStoresBytes := by
  intro s off n v rest hb hl hlow hhigh
  refine ⟨storeBytes 0x40 off n v s.din, ?_, fun i => storeBytes_get 0x40 off n v s.din i⟩
  rw [step_write_store hb hl (by omega), writeWindow_din v _ hlow (hl.end_le hhigh (by decide))]

/-- Settles O16: the registers of numbers 2 and 3, each read back from the state its write leaves. -/
theorem configurationWritesStore : Obligations.ConfigurationWritesStore := by
  intro s v rest
  refine ⟨fun hb => ⟨v.setWidth 5, _, step_write_store hb (by decide) (by decide), rfl, fun j hj => ?cfg⟩,
    fun hb => ⟨_, step_write_store hb (by decide) (by decide), rfl, fun j hj => ?base⟩⟩
  case cfg =>
    rw [← setWidth_five_eq_and]
    exact windowByte_control _ (r := 2) (by decide) hj
  case base => exact windowByte_control _ (r := 3) (by decide) hj

/-- Settles O17: the read-only registers of the control region, then `DOUT` and the bytes above it. -/
theorem readOnlyWritesIgnored : Obligations.ReadOnlyWritesIgnored := by
  intro s off n v rest hb hl hoff
  rw [step_write_store hb hl (by omega)]
  by_cases hcontrol : off < 0x20
  · rw [writeWindow_control_ignored n v _ hcontrol (by omega) (by omega)]
  · rw [writeWindow_readOnly n v _ (by omega)]

/-- Settles O18: the answer depends on the state through `readWindow` alone, which the three registers are not in. -/
theorem keysAreUnreadable : Obligations.KeysAreUnreadable := by
  intro s t u k g tk off n rest hb ht hu
  rw [step_read_resp (s := { s with mkey := k, keystg := g, tkey := tk }) hb hu, step_read_resp hb ht,
    readWindow_hidden]

theorem windowOffset_mmioBase_add {o : Nat} (ho : o < 256) : windowOffset (Config.mmioBase + o) = some o := by
  rw [windowOffset, if_pos (by omega), Nat.add_sub_cancel_left]

/-- Settles O19: the bus address of a window offset is turned back into the offset. -/
theorem busAddressReachesOffset : Obligations.BusAddressReachesOffset := by
  intro s o n v ho
  simp [State.hostRead, State.hostWrite, windowOffset_mmioBase_add ho, issue]

end Sys2Proof.Machine
end

-- ==== The fields of a command word (30_encoding.md R80) ====
section

namespace Sys2Proof

/-- A field of a word, as R85's pseudocode reads it: shifted down and masked. -/
theorem extractLsb'_toNat_eq_mask (w : Word) (lo n : Nat) (hn : n ≤ 32) :
    (w.extractLsb' lo n).toNat = ((w >>> lo) &&& BitVec.ofNat 32 (2 ^ n - 1)).toNat := by
  have hpow : 2 ^ n ≤ 2 ^ 32 := Nat.pow_le_pow_right (by decide) hn
  have hmask : (2 ^ n - 1) % 2 ^ 32 = 2 ^ n - 1 := Nat.mod_eq_of_lt (by omega)
  rw [BitVec.extractLsb'_toNat, BitVec.toNat_and, BitVec.toNat_ushiftRight, BitVec.toNat_ofNat, hmask,
    Nat.and_two_pow_sub_one_eq_mod]

theorem opField_toNat (w : Word) : (opField w).toNat = (w &&& 0xF#32).toNat :=
  (extractLsb'_toNat_eq_mask w 0 4 (by decide)).trans (by rw [BitVec.ushiftRight_zero]; rfl)

theorem argField_toNat (w : Word) : (argField w).toNat = ((w >>> 8) &&& 0x3F#32).toNat :=
  extractLsb'_toNat_eq_mask w 8 6 (by decide)

theorem rsv0Field_eq_zero_iff (w : Word) : rsv0Field w = 0 ↔ (w >>> 4) &&& 0xF#32 = 0 := by
  rw [← BitVec.toNat_inj, ← BitVec.toNat_inj (x := (w >>> 4) &&& 0xF#32)]
  exact Eq.congr_left (extractLsb'_toNat_eq_mask w 4 4 (by decide))

/-- `RSV1` reaches up to bit 31, so R85 needs no mask for it. -/
theorem rsv1Field_eq_zero_iff (w : Word) : rsv1Field w = 0 ↔ w >>> 14 = 0 := by
  have hshift : (rsv1Field w).toNat = (w >>> 14).toNat := by
    rw [rsv1Field, BitVec.extractLsb'_toNat, BitVec.toNat_ushiftRight, Nat.shiftRight_eq_div_pow]
    omega
  rw [← BitVec.toNat_inj, ← BitVec.toNat_inj (x := w >>> 14)]
  exact Eq.congr_left hshift

/-- The four fields cover the word. -/
theorem word_toNat_eq_fields (w : Word) :
    w.toNat = (rsv1Field w).toNat * 2 ^ 14 + (argField w).toNat * 2 ^ 8 + (rsv0Field w).toNat * 2 ^ 4
      + (opField w).toNat := by
  simp only [opField, rsv0Field, argField, rsv1Field, BitVec.extractLsb'_toNat, Nat.shiftRight_eq_div_pow]
  omega

theorem ofNat_shiftLeft (a k : Nat) : (BitVec.ofNat 32 a <<< k : Word) = BitVec.ofNat 32 (a * 2 ^ k) := by
  refine BitVec.eq_of_toNat_eq ?_
  rw [BitVec.toNat_shiftLeft, BitVec.toNat_ofNat, BitVec.toNat_ofNat, Nat.shiftLeft_eq, Nat.mod_mul_mod]

/-- A value put above a lower field is a sum. -/
theorem ofNat_shiftLeft_or_ofNat {k b : Nat} (a : Nat) (hb : b < 2 ^ k) :
    (BitVec.ofNat 32 a <<< k : Word) ||| BitVec.ofNat 32 b = BitVec.ofNat 32 (a * 2 ^ k + b) := by
  rw [ofNat_shiftLeft, ← BitVec.ofNat_or, ← Nat.shiftLeft_eq, Nat.shiftLeft_add_eq_or_of_lt hb]

end Sys2Proof
end

-- ==== The decoder and the encoder (30_encoding.md R80 to R85) ====
section

namespace Sys2Proof

theorem Instr.wellFormed_iff (i : Instr) : i.wellFormed = true ↔ i.arg ≤ 63 := by
  cases i <;> exact decide_eq_true_iff

theorem Instr.opcode_le (i : Instr) : i.opcode ≤ 3 := by
  cases i <;> simp [Instr.opcode]

/-- A command is its opcode and its argument. -/
theorem Instr.eq_iff {i j : Instr} : i = j ↔ i.opcode = j.opcode ∧ i.arg = j.arg := by
  cases i <;> cases j <;> simp [Instr.opcode, Instr.arg]

/-- `decode` accepts a word with clear reserved bits, and reads the command off `OP` and `ARG`. -/
theorem decode_eq_ok_iff {w : Word} {i : Instr} :
    decode w = .ok i ↔
      (rsv0Field w = 0 ∧ rsv1Field w = 0) ∧ (opField w).toNat = i.opcode ∧ (argField w).toNat = i.arg := by
  unfold decode
  split
  case isTrue hreserved => simpa using fun h0 h1 => absurd hreserved (by simp [h0, h1])
  case isFalse hclear =>
    rw [not_or, not_not, not_not] at hclear
    rw [and_iff_right hclear]
    split
    case h_5 =>
      have hop := i.opcode_le
      grind
    all_goals
      rename_i hop
      rw [Except.ok.injEq, Instr.eq_iff, hop]
      rfl

/-- The encoder writes the opcode below the argument. -/
theorem encode_eq_ofNat (i : Instr) : encode i = BitVec.ofNat 32 (i.arg * 2 ^ 8 + i.opcode) := by
  cases i <;> exact ofNat_shiftLeft_or_ofNat _ (by decide)

/-- The reserved-bits law, which stands per constructor, for every command. -/
theorem encode_reserved_clear (i : Instr) : Laws.ReservedBitsClear.Statement i := by
  cases i with
  | nop n => exact Laws.ReservedBitsClear.nop n
  | loadKey n => exact Laws.ReservedBitsClear.loadKey n
  | start n => exact Laws.ReservedBitsClear.start n
  | block n => exact Laws.ReservedBitsClear.block n

/-- A well-formed argument survives in `ARG`. -/
theorem argField_encode {i : Instr} (h : i.wellFormed = true) : (argField (encode i)).toNat = i.arg := by
  have harg := i.wellFormed_iff.mp h
  have hop := i.opcode_le
  rw [encode_eq_ofNat, argField, BitVec.extractLsb'_toNat, BitVec.toNat_ofNat, Nat.shiftRight_eq_div_pow]
  omega

/-- Settles O1: the fields of the encoded word are the ones `decode` looks for. -/
theorem decodeEncodeRoundTrip : Obligations.DecodeEncodeRoundTrip := by
  intro i h
  obtain ⟨hrsv0, hrsv1, hop⟩ := encode_reserved_clear i h
  exact decode_eq_ok_iff.mpr ⟨⟨hrsv0, hrsv1⟩, hop, argField_encode h⟩

/-- Settles O2: the four fields cover the word, and two of them are zero. -/
theorem encodeDecodeRoundTrip : Obligations.EncodeDecodeRoundTrip := by
  intro w i h
  obtain ⟨⟨hrsv0, hrsv1⟩, hop, harg⟩ := decode_eq_ok_iff.mp h
  constructor
  · have hlt := (argField w).isLt
    exact i.wellFormed_iff.mpr (by omega)
  · have hw : w.toNat = i.arg * 2 ^ 8 + i.opcode := by
      simpa [hrsv0, hrsv1, hop, harg] using word_toNat_eq_fields w
    rw [encode_eq_ofNat, ← hw, BitVec.ofNat_toNat, BitVec.setWidth_eq]

/-- Settles O3: the fields of `decode` are the shifts and masks of the pseudocode. -/
theorem decodeFollowsPseudocode : Obligations.DecodeFollowsPseudocode := by
  intro w
  have hop (n : Word) : w &&& 0xF#32 = n ↔ (opField w).toNat = n.toNat := by
    rw [opField_toNat, BitVec.toNat_inj]
  simp only [hop, ← argField_toNat, ne_eq, ← rsv0Field_eq_zero_iff, ← rsv1Field_eq_zero_iff]
  unfold decode
  congr 1
  split
  case h_5 => simp_all
  all_goals simp [*]

end Sys2Proof
end

-- ==== Command words that encode no command (30_encoding.md R83, R84) ====
section

namespace Sys2Proof.Machine

/-- A write to `CMD` runs its word. -/
theorem step_command {s : State} {w : Word} {rest : List HostMove} (hb : s.bus = .write 0x00 4 w :: rest) :
    step s = runCommand w { s with bus := rest, resp := .written } :=
  (step_cons hb).trans (serveWrite_command w _)

/-- A word with a reserved bit set or a reserved opcode decodes to no command. -/
theorem decode_illegal {w : Word}
    (hw : (w >>> 4) &&& 0xF#32 ≠ 0 ∨ w >>> 14 ≠ 0 ∨ 4 ≤ (w &&& 0xF#32).toNat) : ∃ r, decode w = .error r := by
  cases hd : decode w with
  | error r => exact ⟨r, rfl⟩
  | ok i =>
    obtain ⟨⟨hrsv0, hrsv1⟩, hop, -⟩ := decode_eq_ok_iff.mp hd
    obtain h0 | h1 | h4 := hw
    · exact absurd ((rsv0Field_eq_zero_iff w).mp hrsv0) h0
    · exact absurd ((rsv1Field_eq_zero_iff w).mp hrsv1) h1
    · have hle := i.opcode_le
      rw [← opField_toNat] at h4
      omega

theorem runCommand_of_error {w : Word} {r : Illegal} (hw : decode w = .error r) (s : State) :
    runCommand w s = .next (fail .reservedCommand s) := by
  simp [runCommand, hw]

/-- Settles O7: the word only fails, and `FAIL` aborts the run if one is active. -/
theorem illegalWordRaisesReservedCommand : Obligations.IllegalWordRaisesReservedCommand := by
  intro s w rest hb hw
  obtain ⟨r, hr⟩ := decode_illegal hw
  rw [step_command hb, runCommand_of_error hr]
  split
  case isTrue hrun => exact congrArg Host.Outcome.next (fail_of_active ((runActive_iff _).mpr hrun))
  case isFalse hrun =>
    exact congrArg Host.Outcome.next (fail_of_inactive (Bool.eq_false_iff.mpr (mt (runActive_iff _).mp hrun)))

end Sys2Proof.Machine
end

-- ==== The host assembly (30_encoding.md R86, R87) ====
section

namespace Sys2Proof.Machine

/-- `SETCFG` puts the direction above the mask. -/
theorem setCfg_value (m : BitVec 4) (d : Bool) :
    ((BitVec.ofBool d).setWidth 32 <<< 4) ||| m.setWidth 32 = BitVec.ofNat 32 ((if d then 16 else 0) + m.toNat) := by
  rw [← BitVec.ofNat_toNat, ← BitVec.ofNat_toNat, ofNat_shiftLeft_or_ofNat _ m.isLt]
  cases d <;> rfl

/-- Settles O5: the accesses are the tables' own; the command words and the value of `CFG` are sums of their fields. -/
theorem assemblyStatementsExpand : Obligations.AssemblyStatementsExpand := by
  refine ⟨fun off v => ⟨rfl, rfl, rfl, rfl, rfl, rfl⟩, rfl, rfl, fun n _ => ⟨?loadKey, ?block⟩, rfl, rfl, rfl, rfl,
    fun m d => ?setCfg, fun a => rfl⟩
  case loadKey => exact congrArg commandWrite (encode_eq_ofNat (.loadKey n))
  case block => exact congrArg commandWrite (encode_eq_ofNat (.block n))
  case setCfg => exact congrArg (HostMove.write 0x08 4) (setCfg_value m d)

end Sys2Proof.Machine
end

-- ==== The bit-range selector EXPAND (40_bit_range_expander.md) ====
section

namespace Sys2Proof.Machine

theorem maskSelects_iff {m : BitVec 4} {b : Nat} :
    maskSelects m b = true ↔ (m.getLsbD 0 = true ∧ b < 67) ∨ (m.getLsbD 1 = true ∧ 67 ≤ b ∧ b < 132)
      ∨ (m.getLsbD 2 = true ∧ 132 ≤ b ∧ b < 195) ∨ (m.getLsbD 3 = true ∧ 195 ≤ b ∧ b < 256) := by
  simp only [maskSelects, Bool.or_eq_true, Bool.and_eq_true, decide_eq_true_eq, or_assoc]

@[simp] theorem mem_expand {m : BitVec 4} {b : KeyBit} : b ∈ expand m ↔ maskSelects m b.val = true := by
  simp [expand]

theorem nodup_expand (m : BitVec 4) : (expand m).Nodup :=
  (List.nodup_finRange 256).filter _

/-- Settles O45: `EXPAND` filters the list of all key bits, which has each once. -/
theorem expandSelectsRanges : Obligations.ExpandSelectsRanges :=
  fun m => ⟨nodup_expand m, fun _ => mem_expand.trans maskSelects_iff⟩

/-- The ranges are disjoint and cover `0..255`: a single mask bit decides each index (R101). -/
theorem maskSelects_eq_maskBit (m : BitVec 4) {b : Nat} (hb : b < 256) :
    maskSelects m b = if b < 67 then m.getLsbD 0 else if b < 132 then m.getLsbD 1
      else if b < 195 then m.getLsbD 2 else m.getLsbD 3 := by
  rw [Bool.eq_iff_iff, maskSelects_iff]
  split_ifs <;> grind

/-- A test with one answer on a whole range counts all of it or none of it. -/
theorem countP_range'_of_const {p : Nat → Bool} {lo n : Nat} (c : Bool)
    (hp : ∀ {b}, lo ≤ b → b < lo + n → p b = c) : (List.range' lo n).countP p = n * c.toNat := by
  have hmem : ∀ b ∈ List.range' lo n, p b = c := fun b hb =>
    have ⟨hlo, hhi⟩ := List.mem_range'_1.mp hb
    hp hlo hhi
  cases c with
  | false => simpa [List.countP_eq_zero] using hmem
  | true => simpa using List.countP_eq_length.mpr hmem

theorem length_expand_eq_countP (m : BitVec 4) :
    (expand m).length = (List.range 256).countP (maskSelects m) := by
  rw [← List.map_coe_finRange_eq_range, List.countP_map, List.countP_eq_length_filter]
  rfl

/-- The four ranges, one after the other, list `0..255` (R101). -/
theorem range_eq_append_ranges : List.range 256
    = List.range' 0 67 ++ List.range' 67 65 ++ List.range' 132 63 ++ List.range' 195 61 := by
  rw [List.range_eq_range', List.range'_append_1 (s := 0) (m := 67), List.range'_append_1 (s := 0) (m := 132),
    List.range'_append_1 (s := 0) (m := 195)]

/-- Each mask bit contributes the size of its range (R104). -/
theorem length_expand (m : BitVec 4) : (expand m).length
    = 67 * (m.getLsbD 0).toNat + 65 * (m.getLsbD 1).toNat + 63 * (m.getLsbD 2).toNat + 61 * (m.getLsbD 3).toNat := by
  have h0 : (List.range' 0 67).countP (maskSelects m) = 67 * (m.getLsbD 0).toNat :=
    countP_range'_of_const _ (by grind [maskSelects_eq_maskBit])
  have h1 : (List.range' 67 65).countP (maskSelects m) = 65 * (m.getLsbD 1).toNat :=
    countP_range'_of_const _ (by grind [maskSelects_eq_maskBit])
  have h2 : (List.range' 132 63).countP (maskSelects m) = 63 * (m.getLsbD 2).toNat :=
    countP_range'_of_const _ (by grind [maskSelects_eq_maskBit])
  have h3 : (List.range' 195 61).countP (maskSelects m) = 61 * (m.getLsbD 3).toNat :=
    countP_range'_of_const _ (by grind [maskSelects_eq_maskBit])
  rw [length_expand_eq_countP, range_eq_append_ranges, List.countP_append, List.countP_append, List.countP_append,
    h0, h1, h2, h3]

/-- Settles O46: the list of sizes is the formula at the 16 masks. -/
theorem expandSizes : Obligations.ExpandSizes := by
  refine ⟨length_expand, ?_⟩
  simp only [length_expand]
  decide

end Sys2Proof.Machine
end

-- ==== The tweak-key deriver DERIVE (41_tweak_key_deriver.md) ====
section

namespace Sys2Proof.Machine

/-- Setting bits one by one, in any order and however often: the bit of `j` is set by an occurrence of `j`. -/
theorem getLsbD_foldl_keyBitMask (f : Nat → Bool) {l : List Nat} (hl : ∀ i ∈ l, i < 8) {j : Nat} (hj : j < 8)
    (acc : Byte) :
    (l.foldl (fun acc i => if f i then acc ||| keyBitMask i else acc) acc).getLsbD (7 - j)
      = (acc.getLsbD (7 - j) || (decide (j ∈ l) && f j)) := by
  induction l generalizing acc with
  | nil => simp
  | cons i l ih =>
    obtain ⟨hi, hl⟩ := List.forall_mem_cons.mp hl
    have hbit : (keyBitMask i).getLsbD (7 - j) = decide (j = i) := by
      rw [keyBitMask_getLsbD hi (by omega), decide_eq_decide]
      omega
    rw [List.foldl_cons, ih hl]
    by_cases hji : j = i
    · subst hji
      cases f j <;> simp [hbit]
    · cases f i <;> simp [hbit, hji]

/-- The bit order of 00_scope.md R13: `f j` is bit `7 - j` of the byte. -/
theorem getLsbD_byteOfBits (f : Nat → Bool) {j : Nat} (hj : j < 8) : (byteOfBits f).getLsbD (7 - j) = f j := by
  rw [byteOfBits, getLsbD_foldl_keyBitMask f (by simp) hj]
  simp [hj]

/-- The bits that R112 gives the tweak. -/
@[simp] theorem keyBit_tweak (p : Params) (o : Word) (R : TweakRange) (b : KeyBit) :
    keyBit (tweak p o R) b = (decide (b ∈ R) && o.getLsbD (p.tweakPattern b)) := by
  have hb : 8 * (b.val / 8) + b.val % 8 = b.val := Nat.div_add_mod b.val 8
  simp only [keyBit, tweak, Vector.getElem_ofFn]
  rw [getLsbD_byteOfBits _ (Nat.mod_lt _ (by decide))]
  simp [hb]

/-- The loop of R110 on any list, repeats counted: a key bit is flipped once per occurrence if its offset bit is set. -/
theorem keyBit_derive (p : Params) (k : Key) (o : Word) (R : TweakRange) (b : KeyBit) :
    keyBit (derive p k o R) b
      = (keyBit k b ^^ (decide (R.count b % 2 = 1) && o.getLsbD (p.tweakPattern b))) := by
  induction R generalizing k with
  | nil => simp [derive_nil]
  | cons c R ih =>
    rw [derive_cons, ih]
    by_cases hcb : c = b
    · subst hcb
      have hparity : decide ((R.count c + 1) % 2 = 1) = !decide (R.count c % 2 = 1) := by
        rw [← decide_not, decide_eq_decide]
        omega
      rw [List.count_cons_self, hparity]
      cases o.getLsbD (p.tweakPattern c) <;> simp [keyBit_flipKeyBit]
    · have hflip : keyBit (if o.getLsbD (p.tweakPattern c) then flipKeyBit k c else k) b = keyBit k b := by
        split
        · simp [keyBit_flipKeyBit, Ne.symm hcb]
        · rfl
      rw [hflip, List.count_cons_of_ne hcb]

/-- In a set each index occurs at most once (40_bit_range_expander.md R102), so its key bit is flipped at most once. -/
theorem keyBit_derive_of_nodup (p : Params) (k : Key) (o : Word) {R : TweakRange} (hR : R.Nodup) (b : KeyBit) :
    keyBit (derive p k o R) b = (keyBit k b ^^ (decide (b ∈ R) && o.getLsbD (p.tweakPattern b))) := by
  rw [keyBit_derive, hR.count]
  by_cases hb : b ∈ R <;> simp [hb]

theorem derive_eq_xorKey_tweak (p : Params) (k : Key) (o : Word) {R : TweakRange} (hR : R.Nodup) :
    derive p k o R = xorKey k (tweak p o R) :=
  key_ext_keyBit fun b => by rw [keyBit_derive_of_nodup p k o hR, keyBit_xorKey, keyBit_tweak]

/-- Settles O47: the loop and the exclusive or have the same key bits. -/
theorem deriveIsXorWithTweak : Obligations.DeriveIsXorWithTweak :=
  fun p k o R hR => ⟨derive_eq_xorKey_tweak p k o hR, keyBit_tweak p o R⟩

/-! The offset bits that `DERIVE` reads (R111) -/

/-- Only the offset bits that a table entry can name are looked up. -/
theorem derive_congr (p : Params) (k : Key) (R : TweakRange) {o₁ o₂ : Word}
    (h : ∀ i, 5 ≤ i → i ≤ 23 → o₁.getLsbD i = o₂.getLsbD i) : derive p k o₁ R = derive p k o₂ R :=
  key_ext_keyBit fun b => by
    obtain ⟨hlo, hhi⟩ := tweakPattern_bounds p b
    rw [keyBit_derive, keyBit_derive, h _ hlo hhi]

/-- Offset bits 5..23 are the bits of `(o div 32) mod 2^19`. -/
theorem getLsbD_eq_testBit_region (o : Word) {i : Nat} (hlo : 5 ≤ i) (hhi : i ≤ 23) :
    o.getLsbD i = (o.toNat / 2 ^ 5 % 2 ^ 19).testBit (i - 5) := by
  rw [Nat.testBit_mod_two_pow, Nat.testBit_div_two_pow, Nat.sub_add_cancel hlo]
  simp [BitVec.getLsbD, show i - 5 < 19 by omega]

/-- The region number modulo `2^19` determines the derived key. -/
theorem derive_eq_of_region (p : Params) (k : Key) (R : TweakRange) {o₁ o₂ : Word}
    (h : o₁.toNat / 2 ^ 5 % 2 ^ 19 = o₂.toNat / 2 ^ 5 % 2 ^ 19) : derive p k o₁ R = derive p k o₂ R :=
  derive_congr p k R fun i hlo hhi => by
    rw [getLsbD_eq_testBit_region o₁ hlo hhi, getLsbD_eq_testBit_region o₂ hlo hhi, h]

/-- `0x00FFFFE0` has every bit from 5 to 23 set. -/
theorem getLsbD_regionMask {i : Nat} (hlo : 5 ≤ i) (hhi : i ≤ 23) : (0x00FFFFE0#32).getLsbD i = true := by
  interval_cases i <;> rfl

/-- Settles O48: both reduced offsets keep bits 5..23. -/
theorem deriveReadsBits5To23 : Obligations.DeriveReadsBits5To23 := by
  intro p k o R
  constructor
  · apply derive_eq_of_region
    rw [BitVec.toNat_ofNat]
    omega
  · apply derive_congr
    intro i hlo hhi
    rw [BitVec.getLsbD_and, getLsbD_regionMask hlo hhi, Bool.and_true]

/-- Settles O49: each of the three premises makes the region numbers equal modulo `2^19`. -/
theorem deriveRegionInvariance : Obligations.DeriveRegionInvariance := by
  intro p k o₁ o₂ R
  refine ⟨fun h => ?_, fun h => ?_, ?_⟩ <;> apply derive_eq_of_region
  · omega
  · rwa [BitVec.toNat_ushiftRight, BitVec.toNat_ushiftRight, Nat.shiftRight_eq_div_pow,
      Nat.shiftRight_eq_div_pow] at h
  · rw [BitVec.toNat_add, BitVec.toNat_ofNat]
    omega

/-- Offset 0 gives the key itself (R119 (b)). -/
theorem derive_zero (p : Params) (k : Key) (R : TweakRange) : derive p k 0 R = k :=
  key_ext_keyBit fun b => by simp [keyBit_derive]

theorem expand_zero : expand 0 = [] :=
  List.eq_nil_iff_forall_not_mem.mpr fun b => by simp [maskSelects]

/-- Settles O50: such offsets have the region number of offset 0, modulo `2^19`. -/
theorem deriveIsIdentityAt : Obligations.DeriveIsIdentityAt := by
  intro p k o R
  have hregion (h : o.toNat / 2 ^ 5 % 2 ^ 19 = 0) : derive p k o R = k :=
    (derive_eq_of_region p k R (o₂ := 0) h).trans (derive_zero p k R)
  refine ⟨fun h => hregion (by omega), fun h => hregion (by omega), derive_nil p k o, ?_⟩
  rw [expand_zero, derive_nil]

/-! Linearity (R117) and single offset bits (R118) -/

theorem tweak_xor (p : Params) (o₁ o₂ : Word) (R : TweakRange) :
    tweak p (o₁ ^^^ o₂) R = xorKey (tweak p o₁ R) (tweak p o₂ R) :=
  key_ext_keyBit fun b => by
    simp only [keyBit_tweak, keyBit_xorKey, BitVec.getLsbD_xor, Bool.and_xor_distrib_left]

theorem tweak_append_of_disjoint (p : Params) (o : Word) {R₁ R₂ : TweakRange} (h : ∀ b ∈ R₁, b ∉ R₂) :
    tweak p o (R₁ ++ R₂) = xorKey (tweak p o R₁) (tweak p o R₂) :=
  key_ext_keyBit fun b => by
    by_cases hb : b ∈ R₁
    · simp [hb, h b hb]
    · simp [hb]

/-- Deriving twice adds the offsets, even over a list with repeats. -/
theorem derive_derive (p : Params) (k : Key) (o₁ o₂ : Word) (R : TweakRange) :
    derive p (derive p k o₁ R) o₂ R = derive p k (o₁ ^^^ o₂) R :=
  key_ext_keyBit fun b => by
    simp only [keyBit_derive, BitVec.getLsbD_xor, Bool.and_xor_distrib_left, Bool.xor_assoc]

/-- Settles O51: two derivations at one offset are one at offset 0. -/
theorem deriveIsLinear : Obligations.DeriveIsLinear := by
  intro p k o₁ o₂ R₁ R₂
  refine ⟨tweak_xor p o₁ o₂ R₁, tweak_append_of_disjoint p o₁, derive_derive p k o₁ o₂ R₁, ?_⟩
  rw [derive_derive, BitVec.xor_self]
  exact derive_zero p k R₁

/-- Settles O52: bit `i` of `2^j` is set exactly when `i = j`, so outside 5..23 the offset agrees with offset 0. -/
theorem deriveSingleOffsetBit : Obligations.DeriveSingleOffsetBit := by
  intro p k R j hR hj
  constructor
  · intro b
    rw [keyBit_derive_of_nodup p k _ hR, BitVec.getLsbD_twoPow, Bool.decide_and]
    simp [hj, eq_comm]
  · intro hout
    refine (derive_congr p k R (o₂ := 0) fun i hlo hhi => ?_).trans (derive_zero p k R)
    have hne : j ≠ i := by omega
    simp [BitVec.getLsbD_twoPow, hne]

end Sys2Proof.Machine
end

-- ==== The wrapper WRAP (42_cipher_engine.md R140 to R144) ====
section

namespace Sys2Proof.Machine

/-- Settles O53: each direction is one byte reversal of the cipher's output. -/
theorem wrapByteView : Obligations.WrapByteView := by
  intro p key x j
  refine ⟨?_, ?_, rev_getElem x j j.isLt⟩
  · rw [wrap_eq]
    exact rev_getElem _ j j.isLt
  · rw [wrap_eq]
    exact rev_getElem _ j j.isLt

/-- The inner reversals cancel, and then the two cipher directions do. -/
theorem wrap_not_wrap (p : Params) (dir : Bool) (key : Key) (x : Block) : wrap p (!dir) key (wrap p dir key x) = x := by
  rw [wrap_eq, wrap_eq, rev_rev]
  cases dir with
  | false => simp
  | true => simp

/-- Settles O54, by the cancellation law from either direction. -/
theorem wrapRoundTrip : Obligations.WrapRoundTrip :=
  fun p key x => ⟨wrap_not_wrap p false key x, wrap_not_wrap p true key x⟩

end Sys2Proof.Machine
end

-- ==== A data block and the engine's cache (42_cipher_engine.md R131 to R134) ====
section

namespace Sys2Proof.Machine

@[simp] theorem blockData_keyed (p : Params) (n : Nat) (s : State) : (blockData p n s).keyed = true := by
  rw [blockData_eq]

@[simp] theorem blockData_tkey (p : Params) (n : Nat) (s : State) :
    (blockData p n s).tkey = (engineKey p s.offset s).tkey := by
  rw [blockData_eq]

@[simp] theorem blockData_keyedAt (p : Params) (n : Nat) (s : State) :
    (blockData p n s).keyedAt = (engineKey p s.offset s).keyedAt := by
  rw [blockData_eq]

@[simp] theorem blockData_dout (p : Params) (n : Nat) (s : State) :
    (blockData p n s).dout = wrap p s.rdir (engineKey p s.offset s).tkey s.din := by
  rw [blockData_eq]

@[simp] theorem blockData_offset (p : Params) (n : Nat) (s : State) :
    (blockData p n s).offset = s.offset + BitVec.ofNat 32 n := by
  rw [blockData_eq]

/-- The range is a view of the latched mask, which no data block writes. -/
@[simp] theorem blockData_range (p : Params) (n : Nat) (s : State) : (blockData p n s).range = s.range := by
  rw [State.range, blockData_rmask, State.range]

/-- A `BLOCK` of 1 to 16 bytes that reports no error is a data block. -/
theorem eq_blockData_of_exec {n : Nat} {s t : State} (hpos : 1 ≤ n) (h : exec (.block n) s = .next t)
    (hok : t.err = .ok) : t = blockData Config.params n s := by
  rw [exec_block] at h
  obtain ⟨e, hcheck, rfl⟩ | ⟨-, rfl⟩ := runChecked_cases h
  · rw [fail_err] at hok
    exact absurd (hok ▸ hcheck) (blockCheck_ne_ok n s)
  · rw [blockEffect, if_neg (by omega)]

/-- A full block never fails in an active run, in either direction. -/
theorem exec_block_full {s : State} (hact : s.runst = .active) :
    exec (.block 16) s = .next (blockData Config.params 16 s) := by
  rw [exec_block, blockCheck_eq_none.mpr ⟨le_rfl, .inl hact, by omega⟩, runChecked_none, blockEffect,
    if_neg (by decide)]

/-- `ENGINE_KEY` where R131's test asks for a new key. -/
theorem engineKey_of_due {p : Params} {o : Word} {s : State} (h : s.keyed = false ∨ o.toNat % 32 = 0) :
    engineKey p o s = { s with tkey := derive p s.mkey o s.range, keyedAt := o, keyed := true } := by
  rw [engineKey, if_pos ((mustRekey_iff s o).mpr h)]

/-- In the second half of a region a keyed engine reuses its key. -/
theorem engineKey_of_cached {p : Params} {o : Word} {s : State} (hkeyed : s.keyed = true) (hmid : o.toNat % 32 = 16) :
    engineKey p o s = s := by
  have hkeep : ¬s.mustRekey o = true := by simp [mustRekey_iff, hkeyed, hmid]
  rw [engineKey, if_neg hkeep]

/-- The key after `ENGINE_KEY` is the one derived at the block's own offset: a cached key was derived in the same
32-byte region, and `DERIVE` does not tell the offsets of a region apart (R133). -/
theorem Invariants.engineKey_tkey {s : State} (h : Invariants s) (hact : s.runst = .active) :
    (engineKey Config.params s.offset s).tkey = derive Config.params s.mkey s.offset s.range := by
  obtain ⟨-, hregion, htkey⟩ := h.engineKey_region hact
  rw [htkey]
  exact derive_eq_of_region _ _ _ (congrArg (· % 2 ^ 19) hregion)

/-- Settles O55: the block is `blockData`, which uses the key that `ENGINE_KEY` leaves. -/
theorem keyInUseIsDerivedAtOffset : Obligations.KeyInUseIsDerivedAtOffset := by
  intro s t n hinv hact hpos _ hexec hok
  obtain rfl := eq_blockData_of_exec hpos hexec hok
  rw [blockData_dout, blockData_tkey, hinv.engineKey_tkey hact]
  exact ⟨rfl, rfl⟩

end Sys2Proof.Machine
end

-- ==== One full block of a run, fed by the host (70_reset_and_hazards.md R213) ====
section

namespace Sys2Proof.Machine

/-- `s` after the host has put `x` into `DIN` and `BLOCK 16` has transformed it (`exec_block_feed`). -/
def feed (x : Block) (s : State) : State := blockData Config.params 16 { s with din := x }

theorem exec_block_feed {s : State} (hact : s.runst = .active) (x : Block) :
    exec (.block 16) { s with din := x } = .next (feed x s) :=
  exec_block_full (s := { s with din := x }) hact

theorem eq_feed_of_exec {s t : State} {x : Block} (hact : s.runst = .active)
    (h : exec (.block 16) { s with din := x } = .next t) : t = feed x s :=
  Host.Outcome.next.inj (h.symm.trans (exec_block_feed hact x))

@[simp] theorem feed_mkey (x : Block) (s : State) : (feed x s).mkey = s.mkey := blockData_mkey ..

@[simp] theorem feed_rdir (x : Block) (s : State) : (feed x s).rdir = s.rdir := blockData_rdir ..

@[simp] theorem feed_range (x : Block) (s : State) : (feed x s).range = s.range := blockData_range ..

@[simp] theorem feed_runst (x : Block) (s : State) : (feed x s).runst = s.runst := blockData_runst ..

@[simp] theorem feed_err (x : Block) (s : State) : (feed x s).err = .ok := blockData_err ..

@[simp] theorem feed_keyed (x : Block) (s : State) : (feed x s).keyed = true := blockData_keyed ..

@[simp] theorem feed_offset (x : Block) (s : State) : (feed x s).offset = s.offset + 16 := blockData_offset ..

/-- The host's write of `DIN` is outside what the invariants speak of, and a full block keeps them. -/
theorem Invariants.after_feed {s : State} (h : Invariants s) (hact : s.runst = .active) (x : Block) :
    Invariants (feed x s) :=
  (h.after_access s.keystg x s.cfg s.base s.bus s.resp).after_blockData hact (by decide) le_rfl

/-- The output is a function of the block at hand and the run's parameters: the cache does not show (R133). -/
theorem Invariants.feed_dout {s : State} (h : Invariants s) (hact : s.runst = .active) (x : Block) :
    (feed x s).dout = wrap Config.params s.rdir (derive Config.params s.mkey s.offset s.range) x := by
  have hin := h.after_access s.keystg x s.cfg s.base s.bus s.resp
  rw [feed, blockData_dout, hin.engineKey_tkey hact]
  rfl

/-! Which blocks re-key (R132, R134) -/

/-- A block whose key is due caches the key of its own offset. -/
theorem feed_keyedAt_of_due {s : State} (x : Block) (h : s.keyed = false ∨ s.offset.toNat % 32 = 0) :
    (feed x s).keyedAt = s.offset := by
  rw [feed, blockData_keyedAt, engineKey_of_due (s := { s with din := x }) h]

/-- A block in the second half of its region leaves the cache of a keyed engine as it is. -/
theorem feed_of_cached {s : State} (x : Block) (hkeyed : s.keyed = true) (hmid : s.offset.toNat % 32 = 16) :
    (feed x s).keyedAt = s.keyedAt ∧ (feed x s).tkey = s.tkey := by
  rw [feed, blockData_keyedAt, blockData_tkey, engineKey_of_cached (s := { s with din := x }) hkeyed hmid]
  exact ⟨rfl, rfl⟩

/-- Settles O56: only the first block meets an unkeyed engine, so the later two re-key by their offsets alone, which lie
16 and 32 bytes on. -/
theorem rekeyCadence : Obligations.RekeyCadence := by
  intro s t u v x y hact hunkeyed hst htu huv
  have htact : (feed s.din s).runst = .active := (feed_runst ..).trans hact
  obtain rfl : t = feed s.din s := eq_feed_of_exec hact hst
  obtain rfl : u = feed x (feed s.din s) := eq_feed_of_exec htact htu
  obtain rfl : v = feed y (feed x (feed s.din s)) := eq_feed_of_exec ((feed_runst ..).trans htact) huv
  have hfirst : (feed s.din s).keyedAt = s.offset := feed_keyedAt_of_due s.din (.inl hunkeyed)
  have hoff₁ : (feed s.din s).offset = s.offset + 16 := feed_offset ..
  have hoff₂ : (feed x (feed s.din s)).offset = s.offset + 32 := by
    rw [feed_offset, feed_offset, BitVec.add_assoc]
    rfl
  refine ⟨hfirst, fun h0 => ?_, fun h16 => ?_⟩
  · have hmid : (feed s.din s).offset.toNat % 32 = 16 := by rw [hoff₁]; bv_omega
    have hdue : (feed x (feed s.din s)).offset.toNat % 32 = 0 := by rw [hoff₂]; bv_omega
    obtain ⟨hat, hkey⟩ := feed_of_cached x (feed_keyed ..) hmid
    exact ⟨hat.trans hfirst, hkey, (feed_keyedAt_of_due y (.inr hdue)).trans hoff₂⟩
  · have hdue : (feed s.din s).offset.toNat % 32 = 0 := by rw [hoff₁]; bv_omega
    have hmid : (feed x (feed s.din s)).offset.toNat % 32 = 16 := by rw [hoff₂]; bv_omega
    have hsecond := (feed_keyedAt_of_due x (.inr hdue)).trans hoff₁
    obtain ⟨hat, hkey⟩ := feed_of_cached y (feed_keyed ..) hmid
    exact ⟨hsecond, hat.trans hsecond, hkey⟩

end Sys2Proof.Machine
end

-- ==== A run over full blocks is a per-block function (42_cipher_engine.md R133, R142, R143) ====
section

namespace Sys2Proof.Machine

/-- One turn of the body of a run. -/
theorem transformBlocks_cons {s : State} (hact : s.runst = .active) (x : Block) (xs : List Block) :
    transformBlocks (x :: xs) s = (transformBlocks xs (feed x s)).map fun r => ((feed x s).dout :: r.1, r.2) := by
  rw [transformBlocks, exec_block_feed hact]
  simp only [feed_err, if_true]

/-- What R133 and R142 give as output block `i` of an active run that stands at `s`, from the input block alone. -/
def State.transformAt (s : State) (i : Nat) (x : Block) : Block :=
  wrap Config.params s.rdir (derive Config.params s.mkey (s.offset + BitVec.ofNat 32 (16 * i)) s.range) x

/-- The block that the run takes next is its block 0. -/
theorem Invariants.feed_dout_eq_transformAt {s : State} (h : Invariants s) (hact : s.runst = .active) (x : Block) :
    (feed x s).dout = s.transformAt 0 x := by
  rw [h.feed_dout hact, State.transformAt, Nat.mul_zero, BitVec.add_zero]

/-- Block `i` from there on was block `i + 1`: same offset, key, range and direction. -/
theorem transformAt_feed (s : State) (x : Block) (i : Nat) : (feed x s).transformAt i = s.transformAt (i + 1) := by
  have hoffset : s.offset + 16 + BitVec.ofNat 32 (16 * i) = s.offset + BitVec.ofNat 32 (16 * (i + 1)) := by
    rw [BitVec.add_assoc, Nat.mul_succ, Nat.add_comm, BitVec.ofNat_add]
    rfl
  funext y
  simp only [State.transformAt, feed_rdir, feed_mkey, feed_offset, feed_range, hoffset]

/-- The body of an active run completes with the per-block outputs, by induction on the blocks left. -/
theorem transformBlocks_eq_mapIdx (xs : List Block) {s : State} (h : Invariants s) (hact : s.runst = .active) :
    ∃ t, transformBlocks xs s = some (xs.mapIdx s.transformAt, t) := by
  induction xs generalizing s with
  | nil => exact ⟨s, rfl⟩
  | cons x xs ih =>
    obtain ⟨t, ht⟩ := ih (h.after_feed hact x) ((feed_runst ..).trans hact)
    refine ⟨t, ?_⟩
    rw [transformBlocks_cons hact, ht, h.feed_dout_eq_transformAt hact, List.mapIdx_cons, Option.map_some,
      funext (transformAt_feed s x)]

/-- Settles O58: the run has these outputs and no others. -/
theorem transformIsPerBlock : Obligations.TransformIsPerBlock := by
  intro xs ys s t hinv hact hrun
  obtain ⟨t', ht'⟩ := transformBlocks_eq_mapIdx xs hinv hact
  rw [hrun] at ht'
  obtain ⟨hys, -⟩ := Prod.mk.inj (Option.some.inj ht')
  exact hys

/-- Settles O59: at each index both runs use one key, in opposite directions. -/
theorem encryptThenDecryptRestores : Obligations.EncryptThenDecryptRestores := by
  intro xs ys e d e' he hd heact hdact hedir hddir hmkey hoffset hrmask hrun
  have hrange : d.range = e.range := congrArg expand hrmask
  have hcancel (i : Nat) (x : Block) : d.transformAt i (e.transformAt i x) = x := by
    rw [State.transformAt, State.transformAt, hmkey, hoffset, hrange, hedir, hddir]
    exact wrap_not_wrap _ false _ x
  obtain rfl : ys = xs.mapIdx e.transformAt := transformIsPerBlock xs ys e e' he heact hrun
  have hrestore : (xs.mapIdx e.transformAt).mapIdx d.transformAt = xs :=
    List.ext_getElem (by simp) fun i _ _ => by simp [hcancel]
  obtain ⟨d', hd'⟩ := transformBlocks_eq_mapIdx (xs.mapIdx e.transformAt) hd hdact
  rw [hrestore] at hd'
  exact ⟨d', hd'⟩

end Sys2Proof.Machine
end

-- ==== The check each command reports, and its effect where none fails (43_commands.md, 60_exceptions.md R185) ====
section

namespace Sys2Proof.Machine

/-- A checked command that reports no error has passed its checks, if these never report success. -/
theorem eq_effect_of_runChecked {c : Option ErrCode} {f : State → State} {s t : State} (hc : c ≠ some .ok)
    (h : runChecked c f s = .next t) (hok : t.err = .ok) : c = none ∧ t = f s := by
  obtain ⟨e, rfl, rfl⟩ | hdone := runChecked_cases h
  · rw [fail_err] at hok
    exact absurd (congrArg some hok) hc
  · exact hdone

/-! `NOP` (R151) -/

theorem nopCheck_of_ne_zero {n : Nat} (hn : n ≠ 0) : nopCheck n = some .invalidArgument := if_pos hn

/-! `LOAD_KEY` (R152) -/

theorem loadKeyCheck_of_active {s : State} (n : Nat) (hrun : s.runActive = true) :
    loadKeyCheck n s = some .sequence := if_pos hrun

theorem loadKeyCheck_of_length {n : Nat} {s : State} (hrun : s.runActive = false) (h24 : n ≠ 24) (h32 : n ≠ 32) :
    loadKeyCheck n s = some .invalidKeyLength := by
  rw [loadKeyCheck, if_neg (Bool.eq_false_iff.mp hrun), if_pos ⟨h24, h32⟩]

theorem exec_loadKey_done {n : Nat} {s : State} (hrun : s.runst = .idle ∨ s.runst = .done) (hn : n = 24 ∨ n = 32) :
    exec (.loadKey n) s = .next (loadKeyEffect n s) := by
  rw [exec_loadKey, loadKeyCheck_eq_none.mpr ⟨(runActive_eq_false_iff s).mpr hrun, hn⟩, runChecked_none]

/-- The 24-byte extension as lists: the raw key, then its own bytes 8 to 15 (R153). -/
theorem extendKey24_toList (g : Bytes 32) :
    (extendKey24 g).toList = g.toList.take 24 ++ (g.toList.take 16).drop 8 := by
  refine List.ext_getElem (by simp) fun i hi _ => ?_
  rw [Vector.length_toList] at hi
  by_cases hraw : i < 24
  · simp [extendKey24, hraw]
  · have hback : 8 + (i - 24) = i - 16 := by omega
    simp [extendKey24, List.getElem_append, hraw, hback]

/-! `START` (R156) -/

theorem startCheck_of_argument {n : Nat} (s : State) (hn : n ≠ 0) : startCheck n s = some .invalidArgument := if_pos hn

theorem startCheck_of_misaligned {s : State} (hbase : s.base.toNat % 16 ≠ 0) :
    startCheck 0 s = some .invalidAddress := by
  have hmis : (!s.baseAligned) = true := by simp [State.baseAligned, hbase]
  rw [startCheck, if_neg (by decide), if_pos hmis]

theorem startCheck_of_no_key {s : State} (hbase : s.base.toNat % 16 = 0) (hkey : s.keyValid = false) :
    startCheck 0 s = some .noKey := by
  have haligned : ¬(!s.baseAligned) = true := by simp [State.baseAligned, hbase]
  have hnone : (!s.keyValid) = true := by simp [hkey]
  rw [startCheck, if_neg (by decide), if_neg haligned, if_pos hnone]

theorem exec_start_done {s : State} (hready : s.readyToStart) : exec (.start 0) s = .next (beginRun s) := by
  obtain ⟨hkey, hbase⟩ := hready
  rw [exec_start, startCheck_eq_none.mpr ⟨rfl, hbase, hkey⟩, runChecked_none]

/-- A `START` that reports no error had what it needs, and began a run. -/
theorem eq_beginRun_of_exec {s t : State} (h : exec (.start 0) s = .next t) (hok : t.err = .ok) :
    s.readyToStart ∧ t = beginRun s := by
  rw [exec_start] at h
  obtain ⟨hcheck, ht⟩ := eq_effect_of_runChecked (startCheck_ne_ok 0 s) h hok
  obtain ⟨-, hbase, hkey⟩ := startCheck_eq_none.mp hcheck
  exact ⟨⟨hkey, hbase⟩, ht⟩

/-- What `START` writes depends only on `CFG` and `BASE`, which it leaves alone: it accumulates nothing (R158 (f)). -/
theorem beginRun_beginRun (s : State) : beginRun (beginRun s) = beginRun s := rfl

/-! `BLOCK` (R159) -/

theorem blockCheck_of_argument {n : Nat} (s : State) (hn : 16 < n) : blockCheck n s = some .invalidArgument := if_pos hn

theorem blockCheck_of_sequence {n : Nat} {s : State} (hn : n ≤ 16)
    (hrun : s.runst = .idle ∨ s.runst = .done ∨ (s.runst = .final ∧ 1 ≤ n)) : blockCheck n s = some .sequence := by
  have hrefused : ¬(s.runst = .active ∨ (s.runst = .final ∧ n = 0)) := by
    obtain hidle | hdone | ⟨hfinal, hpos⟩ := hrun
    · simp [hidle]
    · simp [hdone]
    · simp [hfinal, Nat.ne_of_gt hpos]
  rw [blockCheck, if_neg (by omega), if_pos hrefused]

theorem blockCheck_of_short_decrypt {n : Nat} {s : State} (hpos : 1 ≤ n) (hshort : n ≤ 15) (hact : s.runst = .active)
    (hdir : s.rdir = true) : blockCheck n s = some .shortBlockOnDecrypt := by
  rw [blockCheck, if_neg (by omega), if_neg (not_not.mpr (.inl hact)), if_pos ⟨hpos, hshort, hdir⟩]

theorem exec_block_end {s : State} (hrun : s.runst = .active ∨ s.runst = .final) :
    exec (.block 0) s = .next (endRun s) := by
  have hpass : blockCheck 0 s = none :=
    blockCheck_eq_none.mpr ⟨by decide, hrun.imp_right fun hfinal => ⟨hfinal, rfl⟩, by omega⟩
  rw [exec_block, hpass, runChecked_none, blockEffect, if_pos rfl]

/-- A block of 1 to 16 bytes never fails in an active run, a short one provided the run encrypts. -/
theorem exec_block_data {n : Nat} {s : State} (hact : s.runst = .active) (hpos : 1 ≤ n) (hle : n ≤ 16)
    (hdir : n = 16 ∨ s.rdir = false) : exec (.block n) s = .next (blockData Config.params n s) := by
  have hpass : blockCheck n s = none :=
    blockCheck_eq_none.mpr ⟨hle, .inl hact, fun _ hshort => hdir.resolve_left (by omega)⟩
  rw [exec_block, hpass, runChecked_none, blockEffect, if_neg (by omega)]

/-- `ENGINE_KEY` keeps the cached key where R131's test asks for no new one. -/
theorem engineKey_of_not_due {p : Params} {o : Word} {s : State} (h : ¬(s.keyed = false ∨ o.toNat % 32 = 0)) :
    engineKey p o s = s := by
  rw [engineKey, if_neg (mt (mustRekey_iff s o).mp h)]

end Sys2Proof.Machine
end

-- ==== What each command does (43_commands.md) ====
section

namespace Sys2Proof.Machine

/-- Settles O25: every effect but a failure leaves `ERR` at OK, and a failure leaves its own code there. -/
theorem failedCommandOnlyFails : Obligations.FailedCommandOnlyFails := by
  intro i s t hexec herr
  obtain ⟨e, -, rfl⟩ | ⟨-, rfl⟩ | ⟨n, -, -, -, rfl⟩ | ⟨-, -, -, rfl⟩ | ⟨-, -, rfl⟩ | ⟨n, -, -, -, -, -, rfl⟩ :=
    exec_cases hexec
  case inl => rw [fail_err]
  all_goals simp at herr

/-- Settles O29: the key installed is the extended one, whose bytes `extendKey24_toList` lists. -/
theorem loadKey24ExtendsKey : Obligations.LoadKey24ExtendsKey := by
  intro s hrun
  exact ⟨extendKey24 s.keystg, exec_loadKey_done hrun (.inl rfl), extendKey24_toList s.keystg⟩

/-- Settles O33: the first `START` leaves the key and the base that the second one asks for. -/
theorem startTwiceIsStartOnce : Obligations.StartTwiceIsStartOnce := by
  intro s t hexec hok
  obtain ⟨hready, rfl⟩ := eq_beginRun_of_exec hexec hok
  have hagain : (beginRun s).readyToStart := hready
  rw [exec_start_done hagain, beginRun_beginRun]

/-- Settles O34: the command is `blockData`, whose key and offset of derivation are the ones `ENGINE_KEY` leaves. -/
theorem blockTransformsData : Obligations.BlockTransformsData := by
  intro s n hact hpos hle hdir
  refine ⟨(engineKey Config.params s.offset s).tkey, (engineKey Config.params s.offset s).keyedAt,
    fun hdue => ?due, fun hcached => ?cached, ?effect⟩
  case due =>
    rw [engineKey_of_due hdue]
    exact ⟨rfl, rfl⟩
  case cached =>
    rw [engineKey_of_not_due hcached]
    exact ⟨rfl, rfl⟩
  case effect =>
    rw [exec_block_data hact hpos hle hdir, blockData_eq, hact]
    rfl

/-- Settles O6: a write to `CMD` runs its word, and a word that decodes runs as its command. -/
theorem stepRunsDecodedCommand : Obligations.StepRunsDecodedCommand := by
  intro s w rest i hb hw
  rw [step_command hb, runCommand, hw]

/-- Settles O27. -/
theorem nopClearsErrOnly : Obligations.NopClearsErrOnly := by
  intro s
  constructor
  · rw [exec_nop, nopCheck_eq_none.mpr rfl, runChecked_none, setErr]
  · intro n hn
    rw [exec_nop, nopCheck_of_ne_zero hn, runChecked_some]

/-- Settles O28: a 32-byte key passes through. -/
theorem loadKey32Completes : Obligations.LoadKey32Completes :=
  fun _ hrun => exec_loadKey_done hrun (.inr rfl)

/-- Settles O30: a refused length meets no active run, so that its error aborts none. -/
theorem loadKeyFailures : Obligations.LoadKeyFailures := by
  intro s n
  constructor
  · intro hrun
    rw [exec_loadKey, loadKeyCheck_of_active n ((runActive_iff s).mpr hrun), runChecked_some]
  · intro hrun h24 h32
    have hidle : s.runActive = false := (runActive_eq_false_iff s).mpr hrun
    rw [exec_loadKey, loadKeyCheck_of_length hidle h24 h32, runChecked_some, fail_of_inactive hidle, setErr]

/-- Settles O31: the effect is `beginRun`, and the range is a view of the mask it latches. -/
theorem startBeginsRun : Obligations.StartBeginsRun :=
  fun s hbase hkey => ⟨beginRun s, exec_start_done ⟨hkey, hbase⟩, rfl, rfl⟩

/-- Settles O32, check by check. -/
theorem startChecksInOrder : Obligations.StartChecksInOrder := by
  intro s
  refine ⟨fun n hn => ?argument, fun hbase => ?misaligned, fun hbase hkey => ?noKey⟩
  case argument => rw [exec_start, startCheck_of_argument s hn, runChecked_some]
  case misaligned => rw [exec_start, startCheck_of_misaligned hbase, runChecked_some]
  case noKey => rw [exec_start, startCheck_of_no_key hbase hkey, runChecked_some]

/-- Settles O35. -/
theorem endOfStreamEndsRun : Obligations.EndOfStreamEndsRun :=
  fun _ hrun => exec_block_end hrun

/-- Settles O36, check by check. -/
theorem blockChecksInOrder : Obligations.BlockChecksInOrder := by
  intro s n
  refine ⟨fun hlong => ?argument, fun hle hrun => ?sequence, fun hpos hshort hact hdir => ?shortDecrypt⟩
  case argument => rw [exec_block, blockCheck_of_argument s hlong, runChecked_some]
  case sequence => rw [exec_block, blockCheck_of_sequence hle hrun, runChecked_some]
  case shortDecrypt => rw [exec_block, blockCheck_of_short_decrypt hpos hshort hact hdir, runChecked_some]

end Sys2Proof.Machine
end

-- ==== Raising an error, and what every command reports (60_exceptions.md R181 to R185) ====
section

namespace Sys2Proof.Machine

/-- Settles O24: with a run active `FAIL` is the abort after the code is written, and without one it is the code. -/
theorem failRecordsAndAborts : Obligations.FailRecordsAndAborts := by
  intro e s
  split
  case isTrue hrun => exact fail_of_active ((runActive_iff s).mpr hrun)
  case isFalse hrun => exact fail_of_inactive (Bool.eq_false_iff.mpr (mt (runActive_iff s).mp hrun))

/-! The two halves of a command (R150) -/

/-- The first failing check of a command, if one fails (43_commands.md R150). -/
def checkOf (i : Instr) (s : State) : Option ErrCode :=
  match i with
  | .nop n => nopCheck n
  | .loadKey n => loadKeyCheck n s
  | .start n => startCheck n s
  | .block n => blockCheck n s

/-- What a command does when all its checks pass (43_commands.md R150). -/
def effectOf (i : Instr) (s : State) : State :=
  match i with
  | .nop _ => setErr .ok s
  | .loadKey n => loadKeyEffect n s
  | .start _ => beginRun s
  | .block n => blockEffect Config.params n s

theorem exec_eq_runChecked (i : Instr) (s : State) : exec i s = runChecked (checkOf i s) (effectOf i) s := by
  cases i <;> rfl

@[simp] theorem effectOf_err (i : Instr) (s : State) : (effectOf i s).err = .ok := by
  cases i with
  | nop n => rfl
  | loadKey n => exact loadKeyEffect_err n s
  | start n => rfl
  | block n =>
    rw [effectOf, blockEffect]
    split
    · exact endRun_err s
    · exact blockData_err _ n s

/-- `ERR` after a command is its first failing check, or OK. -/
theorem exec_err {i : Instr} {s t : State} (h : exec i s = .next t) : t.err = (checkOf i s).getD .ok := by
  rw [exec_eq_runChecked] at h
  obtain ⟨e, hcheck, rfl⟩ | ⟨hcheck, rfl⟩ := runChecked_cases h
  · rw [hcheck, fail_err, Option.getD_some]
  · rw [hcheck, effectOf_err, Option.getD_none]

end Sys2Proof.Machine
end

-- ==== Every move is answered (70_reset_and_hazards.md section 4, 60_exceptions.md R189) ====
section

namespace Sys2Proof.Machine

theorem exec_answers (i : Instr) (s : State) : ∃ t, exec i s = .next t := by
  rw [exec_eq_runChecked]
  cases checkOf i s with
  | none => exact ⟨_, runChecked_none _ s⟩
  | some e => exact ⟨_, runChecked_some e _ s⟩

theorem runCommand_answers (w : Word) (s : State) : ∃ t, runCommand w s = .next t := by
  cases hw : decode w with
  | error r => exact ⟨_, runCommand_of_error hw s⟩
  | ok i =>
    obtain ⟨t, ht⟩ := exec_answers i s
    refine ⟨t, ?_⟩
    rw [runCommand, hw]
    exact ht

theorem serve_answers (m : HostMove) (s : State) : ∃ t, serve m s = .next t := by
  cases m with
  | read off n =>
    by_cases hl : LegalAccess off n
    · exact ⟨_, serveRead_legal s hl⟩
    · exact ⟨_, serveRead_illegal s hl⟩
  | write off n v =>
    by_cases hl : LegalAccess off n
    · by_cases h0 : off = 0
      · rw [serve, serveWrite, if_pos hl, if_pos h0]
        exact runCommand_answers v _
      · exact ⟨_, serveWrite_store v s hl h0⟩
    · exact ⟨_, serveWrite_illegal v s hl⟩
  | reset => exact ⟨_, rfl⟩

/-- Settles O8: an empty queue changes nothing, and the oldest waiting move is answered. -/
theorem stepAlwaysAnswers : Obligations.StepAlwaysAnswers := by
  intro s
  cases hb : s.bus with
  | nil => exact ⟨s, step_nil hb⟩
  | cons m rest =>
    rw [step_cons hb]
    exact serve_answers m _

end Sys2Proof.Machine
end

-- ==== The order of the checks (60_exceptions.md R185) ====
section

namespace Sys2Proof.Machine

/-- The order of R185 for a word that encodes a command, by its opcode and argument: the argument, the sequence, then
the command's own conditions. The model puts the argument before the sequence, as R185 does (log 15). -/
def firstError (op arg : Nat) (s : State) : ErrCode :=
  if ((op = 0 ∨ op = 2) ∧ arg ≠ 0) ∨ (op = 3 ∧ 16 < arg) then .invalidArgument
  else if (op = 1 ∧ (s.runst = .active ∨ s.runst = .final))
      ∨ (op = 3 ∧ (s.runst = .idle ∨ s.runst = .done)) ∨ (op = 3 ∧ 1 ≤ arg ∧ s.runst = .final) then .sequence
  else if op = 1 ∧ arg ≠ 24 ∧ arg ≠ 32 then .invalidKeyLength
  else if op = 2 ∧ s.base.toNat % 16 ≠ 0 then .invalidAddress
  else if op = 2 ∧ s.keyValid = false then .noKey
  else if op = 3 ∧ 1 ≤ arg ∧ arg ≤ 15 ∧ s.rdir = true then .shortBlockOnDecrypt
  else .ok

theorem nopCheck_eq_firstError (n : Nat) (s : State) : (nopCheck n).getD .ok = firstError 0 n s := by
  by_cases hn : n = 0
  · rw [nopCheck_eq_none.mpr hn]
    simp [firstError, hn]
  · rw [nopCheck_of_ne_zero hn]
    simp [firstError, hn]

theorem loadKeyCheck_eq_firstError (n : Nat) (s : State) : (loadKeyCheck n s).getD .ok = firstError 1 n s := by
  cases hrun : s.runActive with
  | true =>
    rw [loadKeyCheck_of_active n hrun]
    simp [firstError, (runActive_iff s).mp hrun]
  | false =>
    have hidle : ¬(s.runst = .active ∨ s.runst = .final) := by simp [← runActive_iff, hrun]
    by_cases hn : n = 24 ∨ n = 32
    · rw [loadKeyCheck_eq_none.mpr ⟨hrun, hn⟩]
      simp [firstError, hidle, ← not_or, hn]
    · obtain ⟨h24, h32⟩ := not_or.mp hn
      rw [loadKeyCheck_of_length hrun h24 h32]
      simp [firstError, hidle, h24, h32]

theorem startCheck_eq_firstError (n : Nat) (s : State) : (startCheck n s).getD .ok = firstError 2 n s := by
  by_cases hn : n = 0
  case neg =>
    rw [startCheck_of_argument s hn]
    simp [firstError, hn]
  subst hn
  by_cases hbase : s.base.toNat % 16 = 0
  case neg =>
    rw [startCheck_of_misaligned hbase]
    simp [firstError, hbase]
  cases hkey : s.keyValid with
  | false =>
    rw [startCheck_of_no_key hbase hkey]
    simp [firstError, hbase, hkey]
  | true =>
    rw [startCheck_eq_none.mpr ⟨rfl, hbase, hkey⟩]
    simp [firstError, hbase, hkey]

theorem blockCheck_eq_firstError (n : Nat) (s : State) : (blockCheck n s).getD .ok = firstError 3 n s := by
  by_cases hlong : 16 < n
  · rw [blockCheck_of_argument s hlong]
    simp [firstError, hlong]
  have hle : n ≤ 16 := not_lt.mp hlong
  by_cases hseq : (s.runst = .idle ∨ s.runst = .done) ∨ (1 ≤ n ∧ s.runst = .final)
  · have hrefused : s.runst = .idle ∨ s.runst = .done ∨ (s.runst = .final ∧ 1 ≤ n) := by
      rwa [or_assoc, and_comm (a := 1 ≤ n)] at hseq
    rw [blockCheck_of_sequence hle hrefused]
    simp [firstError, hlong, hseq]
  have hrun : s.runst = .active ∨ (s.runst = .final ∧ n = 0) := by
    cases hst : s.runst <;> simp_all
  by_cases hshort : 1 ≤ n ∧ n ≤ 15 ∧ s.rdir = true
  · obtain ⟨hpos, h15, hdir⟩ := hshort
    have hact : s.runst = .active := hrun.resolve_right (by omega)
    rw [blockCheck_of_short_decrypt hpos h15 hact hdir]
    simp [firstError, hlong, hact, hpos, h15, hdir]
  · rw [blockCheck_eq_none.mpr ⟨hle, hrun, by simpa using hshort⟩]
    simp [firstError, hlong, hseq, hshort]

/-- Every command checks in the order of R185. -/
theorem checkOf_eq_firstError (i : Instr) (s : State) : (checkOf i s).getD .ok = firstError i.opcode i.arg s := by
  cases i with
  | nop n => exact nopCheck_eq_firstError n s
  | loadKey n => exact loadKeyCheck_eq_firstError n s
  | start n => exact startCheck_eq_firstError n s
  | block n => exact blockCheck_eq_firstError n s

/-- Each opcode that is not reserved has its command, with any argument. -/
theorem exists_instr {op : Nat} (hop : op < 4) (arg : Nat) : ∃ i : Instr, op = i.opcode ∧ arg = i.arg := by
  interval_cases op
  · exact ⟨.nop arg, rfl, rfl⟩
  · exact ⟨.loadKey arg, rfl, rfl⟩
  · exact ⟨.start arg, rfl, rfl⟩
  · exact ⟨.block arg, rfl, rfl⟩

/-- A word that decodes to no command has a reserved opcode or a reserved bit set. -/
theorem reserved_of_decode_error {w : Word} {r : Illegal} (hw : decode w = .error r) :
    4 ≤ (w &&& 0xF#32).toNat ∨ (w >>> 4) &&& 0xF#32 ≠ 0 ∨ w >>> 14 ≠ 0 := by
  by_contra hlegal
  rw [not_or, not_or, not_not, not_not, not_le, ← opField_toNat, ← rsv0Field_eq_zero_iff, ← rsv1Field_eq_zero_iff]
    at hlegal
  obtain ⟨hop, hclear⟩ := hlegal
  obtain ⟨i, hi⟩ := exists_instr hop (argField w).toNat
  have hok : decode w = .ok i := decode_eq_ok_iff.mpr ⟨hclear, hi⟩
  simp [hw] at hok

/-- Settles O26: the decoder's check comes first, and each command keeps the order of the others. -/
theorem errorPriority : Obligations.ErrorPriority := by
  intro s t w rest op arg hb hop harg hstep
  rw [step_command hb] at hstep
  obtain ⟨i, hw, hexec⟩ | ⟨r, hw, rfl⟩ := runCommand_cases hstep
  case inr => rw [fail_err, hop, if_pos (reserved_of_decode_error hw)]
  have hlegal : ¬(4 ≤ op ∨ (w >>> 4) &&& 0xF#32 ≠ 0 ∨ w >>> 14 ≠ 0) := by
    intro hres
    obtain ⟨r, hr⟩ := decode_illegal (or_rotate.mp (hop ▸ hres))
    simp [hr] at hw
  obtain ⟨-, hiop, hiarg⟩ := decode_eq_ok_iff.mp hw
  rw [if_neg hlegal, exec_err hexec, checkOf_eq_firstError, ← hiop, ← hiarg, opField_toNat, argField_toNat, ← hop,
    ← harg]
  rfl

end Sys2Proof.Machine
end

-- ==== The warnings decide nothing (60_exceptions.md R188) ====
section

namespace Sys2Proof.Machine

/-- The state with other warnings (10_state.md R39, R40). -/
def withWarnings (a b : Bool) (c : BitVec 5) (s : State) : State := { s with warnMask0 := a, warnPad := b, padLen := c }

theorem checkOf_withWarnings (i : Instr) (a b : Bool) (c : BitVec 5) (s : State) :
    checkOf i (withWarnings a b c s) = checkOf i s := by
  cases i <;> rfl

theorem fail_withWarnings (e : ErrCode) (a b : Bool) (c : BitVec 5) (s : State) :
    fail e (withWarnings a b c s) = withWarnings a b c (fail e s) := by
  obtain ⟨hrun, hf⟩ | ⟨hrun, hf⟩ := fail_cases e s
  · rw [hf]
    exact fail_of_active hrun
  · rw [hf]
    exact fail_of_inactive hrun

theorem engineKey_withWarnings (p : Params) (o : Word) (a b : Bool) (c : BitVec 5) (s : State) :
    engineKey p o (withWarnings a b c s) = withWarnings a b c (engineKey p o s) := by
  by_cases hdue : s.keyed = false ∨ o.toNat % 32 = 0
  · rw [engineKey_of_due hdue]
    exact engineKey_of_due hdue
  · rw [engineKey_of_not_due hdue]
    exact engineKey_of_not_due hdue

/-- A data block leaves the warnings it found, but for the pad note of a short one. -/
theorem blockData_withWarnings (p : Params) (n : Nat) (a b : Bool) (c : BitVec 5) (s : State) :
    blockData p n (withWarnings a b c s)
      = withWarnings a (if n < 16 then true else b) (if n < 16 then padLength n else c) (blockData p n s) := by
  have hkey : engineKey p (withWarnings a b c s).offset (withWarnings a b c s)
      = withWarnings a b c (engineKey p s.offset s) := engineKey_withWarnings p s.offset a b c s
  rw [blockData_eq, blockData_eq, hkey]
  rfl

/-- The effect of a command is the same under any warnings, but for the warnings it leaves. -/
theorem effectOf_withWarnings (i : Instr) (a b : Bool) (c : BitVec 5) (s : State) :
    ∃ a' b' c', effectOf i (withWarnings a b c s) = withWarnings a' b' c' (effectOf i s) := by
  cases i with
  | nop n => exact ⟨a, b, c, rfl⟩
  | loadKey n =>
    refine ⟨a, b, c, ?_⟩
    rw [effectOf, effectOf, loadKeyEffect, loadKeyEffect]
    split <;> rfl
  | start n => exact ⟨_, _, _, rfl⟩
  | block n =>
    rw [effectOf, effectOf, blockEffect, blockEffect]
    split
    · exact ⟨a, b, c, rfl⟩
    · exact ⟨_, _, _, blockData_withWarnings Config.params n a b c s⟩

/-- Settles O43: neither the checks of a command, nor an error, nor an effect reads the warnings. -/
theorem warningsNeverFailACommand : Obligations.WarningsNeverFailACommand := by
  intro i s t a b c hexec
  change ∃ a' b' c', exec i (withWarnings a b c s) = .next (withWarnings a' b' c' t)
  rw [exec_eq_runChecked] at hexec ⊢
  rw [checkOf_withWarnings]
  obtain ⟨e, hcheck, rfl⟩ | ⟨hcheck, rfl⟩ := runChecked_cases hexec
  · exact ⟨a, b, c, by rw [hcheck, runChecked_some, fail_withWarnings]⟩
  · obtain ⟨a', b', c', heffect⟩ := effectOf_withWarnings i a b c s
    exact ⟨a', b', c', by rw [hcheck, runChecked_none, heffect]⟩

end Sys2Proof.Machine
end

-- ==== What a run does not read once begun: CFG, BASE and KEYSTG (70_reset_and_hazards.md R220 to R222) ====
section

namespace Sys2Proof.Machine

/-- The state with other contents of `CFG`, `BASE` and `KEYSTG` (10_state.md R23, R31, R32). -/
def withConfig (c : BitVec 5) (b : Word) (g : Bytes 32) (s : State) : State :=
  { s with cfg := c, base := b, keystg := g }

theorem blockCheck_withConfig (n : Nat) (c : BitVec 5) (b : Word) (g : Bytes 32) (s : State) :
    blockCheck n (withConfig c b g s) = blockCheck n s := rfl

/-- An error asks only for the run state, and the abort writes none of the three. -/
theorem fail_withConfig (e : ErrCode) (c : BitVec 5) (b : Word) (g : Bytes 32) (s : State) :
    fail e (withConfig c b g s) = withConfig c b g (fail e s) := by
  rw [fail, fail, apply_ite (withConfig c b g)]
  rfl

/-- The re-key test and `DERIVE` read none of the three: the key comes from `MKEY`, the range from `RMASK`. -/
theorem engineKey_withConfig (p : Params) (o : Word) (c : BitVec 5) (b : Word) (g : Bytes 32) (s : State) :
    engineKey p o (withConfig c b g s) = withConfig c b g (engineKey p o s) := by
  rw [engineKey, engineKey, apply_ite (withConfig c b g)]
  rfl

theorem blockData_withConfig (p : Params) (n : Nat) (c : BitVec 5) (b : Word) (g : Bytes 32) (s : State) :
    blockData p n (withConfig c b g s) = withConfig c b g (blockData p n s) := by
  have hkey : engineKey p (withConfig c b g s).offset (withConfig c b g s)
      = withConfig c b g (engineKey p s.offset s) := engineKey_withConfig p s.offset c b g s
  rw [blockData_eq, blockData_eq, hkey]
  rfl

theorem blockEffect_withConfig (p : Params) (n : Nat) (c : BitVec 5) (b : Word) (g : Bytes 32) (s : State) :
    blockEffect p n (withConfig c b g s) = withConfig c b g (blockEffect p n s) := by
  rw [blockEffect, blockEffect]
  split
  · rfl
  · exact blockData_withConfig p n c b g s

/-- Settles O42: neither the checks of a `BLOCK`, nor its error, nor its effect reads or writes the three. -/
theorem runIgnoresLaterConfiguration : Obligations.RunIgnoresLaterConfiguration := by
  intro s t n c b g hexec
  change exec (.block n) (withConfig c b g s) = .next (withConfig c b g t)
  rw [exec_block] at hexec ⊢
  rw [blockCheck_withConfig]
  obtain ⟨e, hcheck, rfl⟩ | ⟨hcheck, rfl⟩ := runChecked_cases hexec
  · rw [hcheck, runChecked_some, fail_withConfig]
  · rw [hcheck, runChecked_none, blockEffect_withConfig]

end Sys2Proof.Machine
end

-- ==== The body of a run over full blocks completes (70_reset_and_hazards.md R213, R214) ====
section

namespace Sys2Proof.Machine

@[simp] theorem blockData_blkcnt (p : Params) (n : Nat) (s : State) : (blockData p n s).blkcnt = s.blkcnt + 1 := by
  rw [blockData_eq]

@[simp] theorem feed_blkcnt (x : Block) (s : State) : (feed x s).blkcnt = s.blkcnt + 1 := blockData_blkcnt ..

/-- Two advances of a counter that wraps are one advance by their sum (00_scope.md R9). -/
theorem add_ofNat_add_ofNat (w : Word) (a b : Nat) :
    w + BitVec.ofNat 32 a + BitVec.ofNat 32 b = w + BitVec.ofNat 32 (a + b) := by
  rw [BitVec.add_assoc, BitVec.ofNat_add]

/-- Settles O57, by induction on the blocks left: each one is fed without an error and leaves the run active. -/
theorem transformCompletes : Obligations.TransformCompletes := by
  intro xs
  induction xs with
  | nil => exact fun s hact => ⟨[], s, rfl, rfl, hact, (BitVec.add_zero _).symm, (BitVec.add_zero _).symm⟩
  | cons x xs ih =>
    intro s hact
    obtain ⟨ys, t, hrun, hlength, htact, hblkcnt, hoffset⟩ := ih (feed x s) ((feed_runst ..).trans hact)
    refine ⟨(feed x s).dout :: ys, t, ?_, congrArg (· + 1) hlength, htact, ?_, ?_⟩
    · rw [transformBlocks_cons hact, hrun, Option.map_some]
    · rw [hblkcnt, feed_blkcnt, List.length_cons, Nat.add_comm]
      exact add_ofNat_add_ofNat s.blkcnt 1 xs.length
    · rw [hoffset, feed_offset, List.length_cons, Nat.mul_succ, Nat.add_comm]
      exact add_ofNat_add_ofNat s.offset 16 (16 * xs.length)

end Sys2Proof.Machine
end

-- ==== The reset input (70_reset_and_hazards.md R210) ====
section

namespace Sys2Proof.Machine

theorem step_reset {s : State} {rest : List HostMove} (hb : s.bus = .reset :: rest) :
    step s = .next { State.reset with bus := rest } := step_cons hb

theorem statusWord_reset : State.reset.statusWord = 0x00000000#32 := by decide

/-- At reset `RMASK` is 0, which selects no key bit (10_state.md R43). -/
theorem range_reset : State.reset.range = [] := expand_zero

/-- Settles O20: a reset move answers the reset state, in which `STATUS` and `RANGE` read as R29 and R43 say. -/
theorem resetClearsEveryElement : Obligations.ResetClearsEveryElement :=
  fun _ _ hb => ⟨_, step_reset hb, rfl, statusWord_reset, range_reset⟩

end Sys2Proof.Machine
end

-- ==== Encodings at a glance (30_encoding.md section 5) ====
section

namespace Sys2Proof

/-- The words that `decode` accepts are the encodings of the well-formed commands: both round trips in one. -/
theorem decode_eq_ok_iff_encode_eq {w : Word} {i : Instr} :
    decode w = .ok i ↔ i.wellFormed = true ∧ encode i = w := by
  constructor
  · exact encodeDecodeRoundTrip w i
  · rintro ⟨hwf, rfl⟩
    exact decodeEncodeRoundTrip i hwf

/-- Settles O4: each row's command is well-formed, and its word is the command's encoding. -/
theorem glanceWordsDecode : Obligations.GlanceWordsDecode := by
  refine ⟨?nop, ?loadKey24, ?loadKey32, ?start, ?block16, ?block1, ?block15, ?block0⟩
  all_goals exact decode_eq_ok_iff_encode_eq.mpr ⟨rfl, rfl⟩

end Sys2Proof
end
